-- ==== Sys2Proof/Word.lean ====
section
/-! DEFINITION. The word types of the magnus tone-curve core (MTC).
R12 (00_scope.md): bit 0 is the least significant bit and every value is unsigned. -/

namespace Sys2Proof

/-- One byte of buffer memory, one sample (R10: `SAMPLE_WIDTH` is 8 bits, unsigned). -/
abbrev Byte := BitVec 8

/-- One host-visible register, one command word (R10: `REG_WIDTH` is 32 bits). -/
abbrev Word := BitVec 32

end Sys2Proof
end

