-- ==== Sys2Proof/Config.lean ====
section
/-! DEFINITION. The implementation parameters of R10 (00_scope.md).
The OPEN ones (`AW`, D3; `MEM_MAP`, D31) are arguments of the model: they are plain data that `State`
carries and no step changes, so a claim for every state is a claim for every value of them. -/

namespace Sys2Proof

/-- What the platform may put in a range of buffer-memory addresses other than ordinary memory
(R61, R68, R80 of 20_memory.md). -/
inductive RegionKind where
  /-- The platform does not admit an access here (R61, R70). -/
  | hole
  /-- Device registers whose accesses have side effects (R80). -/
  | device
  /-- The block's own register space, as the platform placed it (R68, R80). -/
  | registers
  deriving DecidableEq, Repr

/-- A range `[base, base + size)` of buffer-memory addresses that is not ordinary memory. -/
structure Region where
  base : Nat
  size : Nat
  kind : RegionKind
  deriving DecidableEq, Repr

/-- The OPEN parameters. Log entries 1 and 2. -/
structure Config where
  /-- `AW`, the width of a buffer address, 1 to 32 (R11). -/
  aw : Nat
  /-- `MEM_MAP`: the ranges that are not ordinary memory; every other address below `2 ^ aw` is
  ordinary memory (R61, R67, R68). -/
  memMap : List Region
  deriving DecidableEq, Repr

/-- The parameters `State.reset` starts from: `AW` is 32, as in all of the spec's examples (R10), and
every address is ordinary memory. DESIGN CHOICE, log entries 1 and 2. -/
def Config.reference : Config := { aw := 32, memMap := [] }

/-- `MAX_CURVE_ID` (R10, R33). -/
def maxCurveId : Word := 3

/-- `STRIDE`: bytes in a group (R10). -/
def stride : Nat := 3

end Sys2Proof
end

