-- ==== Sys2Proof/Syntax.lean ====
section
/-! DEFINITION. The commands of spec/opcode_table.json, one constructor a row.
R93 (30_encoding.md): a command word carries no immediate and no register number, so no constructor
has a field; the operands stand in registers when the command is accepted. -/

namespace Sys2Proof

/-- The commands of R92 (30_encoding.md). -/
inductive Instr where
  /-- APPLY, word 0x00000001 (R140). -/
  | apply
  /-- EVAL, word 0x00000002 (R170). -/
  | eval
  deriving DecidableEq, Repr

end Sys2Proof
end

