-- ==== Sys2Proof/WellFormed.lean ====
section
/-! DEFINITION. Which terms are well formed.
A command has no operand field (R93), so every `Instr` is; what can be ill formed is a command WORD,
which `decode` refuses by one of the names below, and a configuration. -/

namespace Sys2Proof

/-- Why a command word is ILLEGAL (R95, 30_encoding.md). -/
inductive Illegal where
  /-- Bits 31:8, which must be zero, are not (R90). -/
  | mbzNonZero
  /-- Bits 7:0 are an OPCODE other than 0x01 and 0x02 (R92). -/
  | reservedOpcode
  deriving DecidableEq, Repr

/-- No field, so no check (R93). -/
def Instr.wf : Instr → Bool
  | .apply => true
  | .eval => true

/-- `1 <= AW <= 32` (R10, R11). -/
def Config.wf (c : Config) : Bool := decide (1 ≤ c.aw) && decide (c.aw ≤ 32)

end Sys2Proof
end

