-- ==== Sys2Proof/Decode.lean ====
section
/-! DEFINITION. Command words: fields, decoder, encoder (30_encoding.md R90 to R96). -/

namespace Sys2Proof

/-- OPCODE, bits 7:0 (R90). -/
def opcodeOf (w : Word) : BitVec 8 := w.extractLsb' 0 8

/-- MBZ, bits 31:8 (R90). -/
def mbzOf (w : Word) : BitVec 24 := w.extractLsb' 8 24

/-- R91: total, and the same in every state (R96). `.error` is ILLEGAL, with the reason. -/
def decode (w : Word) : Except Illegal Instr :=
  if mbzOf w ≠ 0 then .error .mbzNonZero
  else if opcodeOf w = 0x01#8 then .ok .apply
  else if opcodeOf w = 0x02#8 then .ok .eval
  else .error .reservedOpcode

/-- The OPCODE of a command (R92). -/
def opcodeFor : Instr → BitVec 8
  | .apply => 0x01#8
  | .eval => 0x02#8

/-- The word of a command: MBZ zero above its OPCODE (R90, R92). -/
def encode (i : Instr) : Word := 0#24 ++ opcodeFor i

/-- The word the opcode table's numbering gives: its low `nbits` bits are those of `w`, the rest zero. -/
def tableWord (nbits w : Nat) : Word := BitVec.ofNat 32 (w % 2 ^ nbits)

/-- The command the decoder reads from a table row's bits. Every command is one 32-bit word (R90), so
more than 32 bits are no command of this block. -/
def decodeTableWord (nbits w : Nat) : Option Instr :=
  if nbits ≤ 32 then (decode (tableWord nbits w)).toOption else none

end Sys2Proof
end

