-- ==== Sys2Proof/Machine/State.lean ====
section
/-! DEFINITION. What the machine holds (10_state.md), what may happen to it (the two agents of R15,
00_scope.md, and reset), and why a step may stop. -/

namespace Sys2Proof.Machine

/-- `int.PHASE` (R37, R38). -/
inductive Phase where
  | idle
  | run
  deriving DecidableEq, Repr

/-- The outcomes STATUS.ERR codes (R24). Codes 4 to 15 are never produced, so they have no name. -/
inductive ErrKind where
  | ok
  | invalidCurveSelector
  | nonContiguousBuffer
  | illegalCommand
  deriving DecidableEq, Repr

/-- What stands at a word slot of the register space (R21). -/
inductive Reg where
  | cmd
  | status
  | sel
  | base
  | len
  | sample
  | result
  | errGiven
  | errMax
  | curveMax
  /-- NAME[k] (R34). -/
  | name (k : BitVec 4)
  /-- 0x28 to 0x3C and 0x80 to 0xFC (R36). -/
  | reserved
  deriving DecidableEq, Repr

/-- A host access (R180): direction, offset as the word index `offset[7:2]`, data. A misaligned access
cannot be written down (R65). -/
inductive PortAccess where
  | read (slot : BitVec 6)
  | write (slot : BitVec 6) (w : Word)
  deriving DecidableEq, Repr

/-- The agents other than the engine that may access buffer memory (R74): the host, by its own path
outside the block (R60), the engine of another MTC instance (R81), or another bus master. Log entry 14. -/
inductive Agent where
  | host
  | busMaster
  /-- The engine of the other instance that goes by `id`. -/
  | mtc (id : Nat)
  deriving DecidableEq, Repr

/-- One thing that happens next. The list of them in `State` says in which order the agents move (R15:
the steps interleave in any order), so a claim for every list is a claim for every interleaving.
Log entry 3. -/
inductive Event where
  /-- A host access to the register space that is `bits` wide (R180; only 32 is inside the interface, R64). -/
  | port (bits : Nat) (access : PortAccess)
  /-- An agent reads one byte of buffer memory (R60, R97 `mr`). -/
  | memRead (agent : Agent) (addr : Nat)
  /-- An agent writes one byte of buffer memory (R60, R97 `mw`). -/
  | memWrite (agent : Agent) (addr : Nat) (value : Byte)
  /-- The engine takes its step, if it has one (R148). `admits` is the platform's answer to the byte access
  of that step, whatever its address: `false` rejects it (R70). Nothing constrains it. Log entry 2. -/
  | engine (admits : Bool)
  /-- Reset is asserted (R230). `mapped` is the free choice of R232: the offsets of a running APPLY's
  processed range whose bytes are left mapped, the other offsets being left as before the command.
  Nothing constrains it. Log entry 4. -/
  | reset (mapped : List Nat)
  /-- An APPLY of the other instance `id` begins to run on the processed range `[base, base + size)`, which
  from then on is that instance's territory (R81). Log entry 14. -/
  | otherRun (id base size : Nat)
  /-- The APPLYs of the other instance `id` are over, and its host has seen it (R237). Log entry 14. -/
  | otherEnd (id : Nat)
  deriving DecidableEq, Repr

/-- What the host was given: the data of a register read (`rd NAME -> t`, R97) or a byte of its own read
of buffer memory (`mr`, R97). -/
inductive Reply where
  | reg (slot : BitVec 6) (w : Word)
  | byte (addr : Nat) (value : Byte)
  deriving DecidableEq, Repr

/-- The bytes `[base, base + size)` of buffer memory. -/
structure Span where
  base : Nat
  size : Nat
  deriving DecidableEq, Repr

/-- The territory of another instance's running APPLY (R81). -/
structure Claim where
  owner : Nat
  span : Span
  deriving DecidableEq, Repr

/-- Buffer memory, outside the block (R60, R61): address and byte, addresses strictly rising, no byte
equal to what an unlisted address reads as (`Memory.unlisted`, `Memory.wf`). -/
abbrev Memory := List Host.Cell

/-- The machine. INVENTORY.md, under State, gives each field's rule and reset value. -/
structure State where
  /-- The OPEN parameters (R10); no step changes them. -/
  cfg : Config
  /-- SEL (R26). -/
  sel : Word
  /-- BASE; its bits from `AW` up are 0 (R27). -/
  base : Word
  /-- LEN (R28). -/
  len : Word
  /-- SAMPLE, the 8 bits used (R29). -/
  sample : Byte
  /-- RESULT, the 8 bits used (R30). -/
  result : Byte
  /-- ERR_GIVEN (R31). -/
  errGiven : Word
  /-- ERR_MAX (R32). -/
  errMax : Word
  /-- STATUS.DONE (R23). -/
  done : Bool
  /-- STATUS.ERR (R23, R24). -/
  err : ErrKind
  /-- STATUS.DROPPED (R23, R25). -/
  dropped : Bool
  /-- `int.PHASE`; STATUS.BUSY is a view of it (R23, R38). -/
  phase : Phase
  /-- `int.LSEL` (R39). -/
  lsel : BitVec 2
  /-- `int.LBASE`; its bits from `AW` up are 0 (R40). -/
  lbase : Word
  /-- `int.END` (R41). -/
  endOff : Word
  /-- `int.CUR` (R42). -/
  cur : Word
  /-- Buffer memory (R61). -/
  mem : Memory
  /-- MODEL'S OWN: buffer memory as it was when the running APPLY was accepted, for R232's "value before
  the command". Log entry 4. -/
  snapshot : Memory
  /-- MODEL'S OWN: processed ranges of APPLYs that are over but whose end the host has not yet seen by a
  STATUS read with BUSY = 0 (R73, R237). Log entry 6. -/
  unacquired : List Span
  /-- The territories of the other instances (R81). Log entry 14. -/
  claims : List Claim
  /-- MODEL'S OWN: what happens next, first to last (R15). Log entry 3. -/
  inbox : List Event
  /-- MODEL'S OWN: what the host was given, latest first (the temporaries of R97). Log entry 3. -/
  replies : List Reply
  deriving DecidableEq, Repr

/-- The model faults of R219 (60_exceptions.md), and one of the model's own. -/
inductive Fault where
  /-- Raised by the engine's byte step when the platform rejects its access (R70, R149), for its address or
  for any other reason. Safe: the hardware outcome is the OPEN parameter `MEM_ERROR`. -/
  | memPortError (addr : Nat)
  /-- Raised by an access of another agent to the running APPLY's processed range, or to that of a past
  APPLY before the host's STATUS read (R74, R237), and by an access of any agent, the engine among them, to
  another instance's territory (R81). Safe: the value is unspecified on the hardware. -/
  | bufferRace (addr : Nat)
  /-- Raised when an APPLY passes validation on a buffer that overlaps side-effecting device memory or the
  block's own registers, whatever its selector (R80). Safe: such a placement is outside the contract. -/
  | bufferPlacement
  /-- Raised by another agent's access to an address that is not below `2 ^ AW` (R60: no such byte
  exists). Safe: no rule gives an outcome. -/
  | noSuchAddress (addr : Nat)
  deriving DecidableEq, Repr

/-- What the model refuses, by name. -/
inductive Refusal where
  /-- Raised by an arm of `exec` whose instruction has no meaning yet. Safe. -/
  | notModelled (mnemonic : String)
  /-- Raised by a host port access of a width other than 32 bits (R64; `Refused(access)` of R219). Safe:
  it is outside the interface. Log entry 12. -/
  | access (bits : Nat) (access : PortAccess)
  /-- Raised by another agent's access to a byte that is below `2 ^ AW` but not ordinary memory: what a
  hole, a device or the register space does there is the platform's (R61, R68). Safe. -/
  | platformAccess (agent : Agent) (addr : Nat)
  deriving DecidableEq, Repr

/-- The block just after reset (R230 with the values of R21, R23 and R37), under the parameters `cfg`,
with nothing listed in memory and nothing waiting to happen. -/
def State.initial (cfg : Config) : State :=
  { cfg := cfg
    sel := 0, base := 0, len := 0, sample := 0
    result := 0, errGiven := 0, errMax := 0
    done := false, err := .ok, dropped := false
    phase := .idle, lsel := 0, lbase := 0, endOff := 0, cur := 0
    mem := [], snapshot := [], unacquired := [], claims := [], inbox := [], replies := [] }

/-- The machine right after reset: IDLE, waiting for a CMD write (R233). -/
def State.reset : State := State.initial Config.reference

end Sys2Proof.Machine
end

