-- ==== Sys2Proof/Machine/Ops.lean ====
section
/-! DEFINITION. The operations the meanings share: buffer memory, the platform's address map, the race
test, the report primitives of 60_exceptions.md. The block has no trap (R200, R210): what a trap entry
is elsewhere, `State.report` is here, and there is nothing to return from (R211). -/

namespace Sys2Proof.Machine

/-! ### Buffer memory (R60, R61, R64) -/

/-- What a byte nothing has written reads as. DESIGN CHOICE, log entry 5. -/
def Memory.unlisted : Byte := 0

/-- `MemRead(addr, 1)` (R14). -/
def Memory.read : Memory → Nat → Byte
  | [], _ => Memory.unlisted
  | (k, v) :: rest, a => if k = a then v else Memory.read rest a

/-- The memory without an entry for `a`. -/
def Memory.erase (m : Memory) (a : Nat) : Memory := m.filter fun c => decide (c.1 ≠ a)

/-- Put an entry before the first one at a higher address. -/
def Memory.insert : Memory → Nat → Byte → Memory
  | [], a, v => [(a, v)]
  | (k, x) :: rest, a, v =>
    if a < k then (a, v) :: (k, x) :: rest else (k, x) :: Memory.insert rest a v

/-- `MemWrite(addr, 1, v)` (R14). Writing what an unlisted byte reads as leaves no entry. -/
def Memory.write (m : Memory) (a : Nat) (v : Byte) : Memory :=
  if v = Memory.unlisted then Memory.erase m a else Memory.insert (Memory.erase m a) a v

/-- The canonical form. -/
abbrev Memory.wf (m : Memory) : Prop :=
  m.Pairwise (fun c d => c.1 < d.1) ∧ ∀ c ∈ m, c.2 ≠ Memory.unlisted

/-! ### The address map (R61, R67, R68, R80) -/

abbrev Contains (r : Region) (a : Nat) : Prop := r.base ≤ a ∧ a < r.base + r.size

/-- The region has a byte in `[b, b + n)`. -/
abbrev Overlaps (r : Region) (b n : Nat) : Prop :=
  0 < n ∧ 0 < r.size ∧ r.base < b + n ∧ b < r.base + r.size

/-- The byte exists (R60) and is ordinary memory (R67): no listed region holds it. -/
abbrev Ordinary (cfg : Config) (a : Nat) : Prop :=
  a < 2 ^ cfg.aw ∧ ∀ r ∈ cfg.memMap, ¬ Contains r a

/-- The buffer `[b, b + n)` overlaps side-effecting device memory or the block's registers (R80). -/
abbrev Misplaced (cfg : Config) (b n : Nat) : Prop :=
  ∃ r ∈ cfg.memMap, r.kind ≠ .hole ∧ Overlaps r b n

/-! ### The engine's range and the race test (R74, R237) -/

abbrev Span.Holds (p : Span) (a : Nat) : Prop := p.base ≤ a ∧ a < p.base + p.size

/-- `[int.LBASE, int.LBASE + int.END)`. -/
def State.runSpan (s : State) : Span := ⟨s.lbase.toNat, s.endOff.toNat⟩

/-- No agent but the engine may access `a` now: it lies in the range of the running APPLY (R74), or of
one that is over but whose end the host has not seen (R237, R73). Log entry 6. -/
abbrev Exclusive (s : State) (a : Nat) : Prop :=
  (s.phase = .run ∧ s.runSpan.Holds a) ∨ ∃ p ∈ s.unacquired, p.Holds a

/-- The address lies in the territory of another instance's running APPLY (R81). -/
abbrev Foreign (s : State) (a : Nat) : Prop := ∃ c ∈ s.claims, c.span.Holds a

/-- The agent is the engine of the instance `id`. -/
def Agent.owns : Agent → Nat → Bool
  | .host, _ => false
  | .busMaster, _ => false
  | .mtc k, id => k == id

/-- An access of the agent to `a` is a race (R74, R81, R237): the byte is this block's engine's, or in the
territory of an instance that the agent is not. -/
abbrev Races (agent : Agent) (s : State) (a : Nat) : Prop :=
  Exclusive s a ∨ ∃ c ∈ s.claims, agent.owns c.owner = false ∧ c.span.Holds a

/-- Another instance's APPLY begins to run (R81). -/
def State.otherRun (s : State) (id base size : Nat) : State :=
  { s with claims := ⟨id, ⟨base, size⟩⟩ :: s.claims }

/-- Another instance's APPLYs are over (R81, R237). -/
def State.otherEnd (s : State) (id : Nat) : State :=
  { s with claims := s.claims.filter fun c => decide (c.owner ≠ id) }

/-! ### Reports (R203, R204) -/

/-- `report(E, given, max)` (R203). -/
def State.report (s : State) (e : ErrKind) (given max : Word) : State :=
  { s with err := e, errGiven := given, errMax := max, done := true }

/-- `complete_ok()` (R204). -/
def State.completeOk (s : State) : State :=
  { s with err := .ok, errGiven := 0, errMax := 0, done := true }

/-- `drop(w)`: a CMD write while RUN (R184). -/
def State.drop (s : State) : State := { s with dropped := true }

/-- The step of one reply to the host. -/
def State.reply (s : State) (r : Reply) : State := { s with replies := r :: s.replies }

end Sys2Proof.Machine
end

