-- ==== Sys2Proof/Machine/Operands.lean ====
section
/-! DEFINITION. Operand assembly (R93, 30_encoding.md): a command's operands are what the operand
registers hold when it is accepted. The checks on them, and what an accepted APPLY latches. -/

namespace Sys2Proof.Machine

/-- `trunc_AW(w)` as BASE stores it (R27, R182): the bits from `AW` up are 0. -/
def truncAw (aw : Nat) (w : Word) : Word := BitVec.ofNat 32 (w.toNat % 2 ^ aw)

/-- `trunc_8(w)` as SAMPLE stores it (R29). -/
def truncSample (w : Word) : Byte := w.setWidth 8

/-- `zext_32` of an 8-bit register (R181). -/
def zextByte (b : Byte) : Word := b.setWidth 32

/-- The selector exceeds the maximum valid curve id, as unsigned numbers (R142, R171). -/
abbrev SelectorInvalid (s : State) : Prop := maxCurveId.toNat < s.sel.toNat

/-- The buffer runs past the top of buffer memory: `BASE + LEN > 2 ^ AW` as an exact sum (R143). -/
abbrev Wraps (s : State) : Prop := 2 ^ s.cfg.aw < s.base.toNat + s.len.toNat

/-- The buffer of the command is misplaced (R80); the buffer is `[BASE, BASE + LEN)` (R62). -/
abbrev BufferMisplaced (s : State) : Prop := Misplaced s.cfg s.base.toNat s.len.toNat

/-- The curve a valid selector names. -/
def curveOf (sel : Word) : BitVec 2 := sel.setWidth 2

/-- `3 * (LEN div 3)`: the whole-group prefix (R41, R145). -/
def wholeGroups (len : Word) : Word := BitVec.ofNat 32 (stride * (len.toNat / stride))

/-- Acceptance of an APPLY into RUN (R145): latch the operands, start at offset 0. -/
def State.beginRun (s : State) : State :=
  { s with
    lsel := curveOf s.sel, lbase := s.base, endOff := wholeGroups s.len, cur := 0
    phase := .run, snapshot := s.mem }

end Sys2Proof.Machine
end

