-- ==== Sys2Proof/Machine/BufferAccess.lean ====
section
/-! DEFINITION. Accesses of the other agents to buffer memory, outside the block (20_memory.md R60, R74,
R75, R81). Every access takes effect at once, in the order of the inbox: log entry 10. -/

namespace Sys2Proof.Machine

/-- When an access of another agent to one byte goes through, it gives `done`. Log entry 9; the
order of the tests, log entry 18. -/
def guardAccess (agent : Agent) (a : Nat) (s done : State) : Host.Outcome State Fault Refusal :=
  if 2 ^ s.cfg.aw ≤ a then .fault (.noSuchAddress a)
  else if Races agent s a then .fault (.bufferRace a)
  else if Ordinary s.cfg a then .next done
  else .refused (.platformAccess agent a)

/-- A read of one byte. Only the host's own reads are given to the host; no rule orders another bus
master's (R76), so its value is recorded nowhere. Log entry 11. -/
def memRead (agent : Agent) (a : Nat) (s : State) : Host.Outcome State Fault Refusal :=
  match agent with
  | .host => guardAccess agent a s (s.reply (.byte a (s.mem.read a)))
  | .busMaster => guardAccess agent a s s
  | .mtc _ => guardAccess agent a s s

/-- A write of one byte. -/
def memWrite (agent : Agent) (a : Nat) (v : Byte) (s : State) : Host.Outcome State Fault Refusal :=
  guardAccess agent a s { s with mem := s.mem.write a v }

end Sys2Proof.Machine
end

