-- ==== Sys2Proof/Machine/Curves.lean ====
section
/-! DEFINITION. The Curve Library (40_curves.md): the LUT the hardware holds (R44, R121 to R123), the
closed forms of R120, and the exact rational functions the LUT's entries round (R110 to R119). Only the
LUT is read by the machine; that the three agree is stated in Obligations.lean. -/

namespace Sys2Proof.Machine

/-! ### The LUT, as the spec's own hex digits -/

/-- R121: 32 entries a row, the first entry in the top byte. -/
def lightRom : List (BitVec 256) := [
  0x0000000000010101010101010102020202020202020203030303030303030404#256,
  0x0404040404040405050505050505050606060606060606060707070707070707#256,
  0x08080808080808080809090909090909090A0A0A0A0A0A0A0A0A0B0B0B0B0B0B#256,
  0x0B0B0C0C0C0C0C0C0C0C0C0D0D0D0D0D0D0D0D0E0E0E0E0E0E0E0E0E0F0F0F0F#256,
  0x0F0F0F0F10101010101010101011111111111111111212121212121212121313#256,
  0x1313131313131414141414171A1C1F2225272A2D303235383B3D404346494B4E#256,
  0x515456595C5F6164676A6C6F7275787A7D808385888B8E909396999B9EA1A4A7#256,
  0xA9ACAFB2B4B7BABDBFC2C5C8CACDD0D3D6D8DBDEE1E3E6E9ECEEF1F4F7F9FCFF#256]

/-- R122. -/
def midRom : List (BitVec 256) := [
  0x0000000101010101010202020202020303030303030404040404040505050505#256,
  0x050606060606060707070707070808080808080909090909090A0A0A0A0A0A0B#256,
  0x0B0B0B0B0B0C0C0C0C0C0C0D0D0D0D0D0D0E0E0E0E0E0E0F0F0F0F0F0F101010#256,
  0x10101011111111111112121212121213131313131314141414181C2024282C30#256,
  0x34383C4044484C5054585C6064686C7074787C8084888C9094989CA0A4A8ACB0#256,
  0xB4B8BCC0C4C8CCD0D4D8DCDCDDDDDEDEDEDFDFE0E0E1E1E1E2E2E3E3E3E4E4E5#256,
  0xE5E5E6E6E7E7E8E8E8E9E9EAEAEAEBEBECECECEDEDEEEEEFEFEFF0F0F1F1F1F2#256,
  0xF2F3F3F3F4F4F5F5F6F6F6F7F7F8F8F8F9F9FAFAFAFBFBFCFCFDFDFDFEFEFFFF#256]

/-- R123. -/
def darkRom : List (BitVec 256) := [
  0x0002040607090B0D0F11121416181A1C1D1F21232527282A2C2E303233353739#256,
  0x3B3D3E4042444648494B4D4F51535456585A5C5E5F61636567696A6C6E707274#256,
  0x7577797B7D7F80828486888A8B8D8F91939596989A9C9EA0A1A3A5A7A9ABACAE#256,
  0xB0B2B4B6B7B9BBBDBFC1C2C4C6C8CACCCDCFD1D3D5D7D8DADCDCDDDDDDDDDEDE#256,
  0xDEDEDFDFDFDFE0E0E0E0E1E1E1E1E2E2E2E2E3E3E3E4E4E4E4E5E5E5E5E6E6E6#256,
  0xE6E7E7E7E7E8E8E8E8E9E9E9E9EAEAEAEBEBEBEBECECECECEDEDEDEDEEEEEEEE#256,
  0xEFEFEFEFF0F0F0F0F1F1F1F2F2F2F2F3F3F3F3F4F4F4F4F5F5F5F5F6F6F6F6F7#256,
  0xF7F7F7F8F8F8F9F9F9F9FAFAFAFAFBFBFBFBFCFCFCFCFDFDFDFDFEFEFEFEFFFF#256]

/-- Entry `b` of a table. -/
def romEntry (rom : List (BitVec 256)) (b : Byte) : Byte :=
  (rom.getD (b.toNat / 32) 0 >>> (8 * (31 - b.toNat % 32))).setWidth 8

/-- `LUT(c, b)` (R119). Curve 0 has no table (R44, R116). -/
def lut (c : BitVec 2) (b : Byte) : Byte :=
  if c = 0 then b
  else if c = 1 then romEntry lightRom b
  else if c = 2 then romEntry midRom b
  else romEntry darkRom b

/-! ### The integer closed forms (R120) -/

def lutClosed (c : BitVec 2) (b : Nat) : Nat :=
  if c = 0 then b
  else if c = 1 then
    if b < 170 then (4 * b + 17) / 34 else 20 + (94 * (b - 170) + 17) / 34
  else if c = 2 then
    if b < 120 then (b + 3) / 6
    else if b < 170 then 20 + 4 * (b - 120)
    else 220 + (14 * (b - 170) + 17) / 34
  else
    if b < 120 then (11 * b + 3) / 6 else 220 + (14 * (b - 120) + 27) / 54

/-! ### The exact functions (R13: arithmetic on rationals, one rounding at the end) -/

/-- R113. -/
def light (x : ℚ) : ℚ :=
  if x < 170 then (x / 170) * 20 else 20 + ((x - 170) / (255 - 170)) * (255 - 20)

/-- R114. -/
def mid (x : ℚ) : ℚ :=
  if x < 120 then (x / 120) * 20
  else if x < 170 then 20 + ((x - 120) / (170 - 120)) * (220 - 20)
  else 220 + ((x - 170) / (255 - 170)) * (255 - 220)

/-- R115. -/
def dark (x : ℚ) : ℚ :=
  if x < 120 then (x / 120) * 220 else 220 + ((x - 120) / (255 - 120)) * (255 - 220)

/-- R110. -/
def clampIn (x : ℚ) : ℚ := min 255 (max 0 x)

/-- `evaluate(curve_id, sample)` (R110; R116 for the identity). -/
def evaluate (c : BitVec 2) (x : ℚ) : ℚ :=
  if c = 0 then clampIn x
  else if c = 1 then light (clampIn x)
  else if c = 2 then mid (clampIn x)
  else dark (clampIn x)

/-- R117. -/
def clampOut (y : ℚ) : ℚ := min 255 (max 0 y)

/-- Round half up on the exact value (R118, D6). -/
def round8 (y : ℚ) : ℤ := ⌊y + 1 / 2⌋

/-- The control points of R111; the identity has none (90_conflicts.md C8). -/
def controlPoints (c : BitVec 2) : List (ℚ × ℚ) :=
  if c = 0 then []
  else if c = 1 then [(0, 0), (170, 20), (255, 255)]
  else if c = 2 then [(0, 0), (120, 20), (170, 220), (255, 255)]
  else [(0, 0), (120, 220), (255, 255)]

/-- Linear interpolation between two control points (R111). -/
def segmentAt (p q : ℚ × ℚ) (x : ℚ) : ℚ := p.2 + ((x - p.1) / (q.1 - p.1)) * (q.2 - p.2)

/-- R112: the segment is found in ascending order, its low end included and its high end not, but for
the last segment, which is closed. -/
def interpolate : List (ℚ × ℚ) → ℚ → ℚ
  | p :: q :: r :: rest, x =>
    if x < q.1 then segmentAt p q x else interpolate (q :: r :: rest) x
  | [p, q], x => segmentAt p q x
  | [_], _ => 0
  | [], _ => 0

end Sys2Proof.Machine
end

