-- ==== Sys2Proof/Machine/Engine.lean ====
section
/-! DEFINITION. The engine's steps (41_apply.md R148 to R151), one byte each and a completion step. -/

namespace Sys2Proof.Machine

/-- The address of the next byte, `int.LBASE + int.CUR`, on natural numbers (R13, R149). -/
def State.nextAddr (s : State) : Nat := s.lbase.toNat + s.cur.toNat

/-- `byte_step()` (R149): one read and one write of one byte. In another instance's territory it races
(R81). An access the platform rejects is the model fault of R70: because `admits` says so, or because the
address is not ordinary memory (log entry 2). Of an access that does both, the race is recorded: log entry
18. -/
def byteStep (admits : Bool) (s : State) : Host.Outcome State Fault Refusal :=
  if Foreign s s.nextAddr then .fault (.bufferRace s.nextAddr)
  else if admits = true ∧ Ordinary s.cfg s.nextAddr then
    .next { s with
      mem := s.mem.write s.nextAddr (lut s.lsel (s.mem.read s.nextAddr)), cur := s.cur + 1 }
  else .fault (.memPortError s.nextAddr)

/-- The range of the APPLY that has just ended stays the engine's until the host has seen the end (R237). -/
def State.endRun (s : State) : State :=
  { s with phase := .idle, unacquired := s.runSpan :: s.unacquired }

/-- `completion_step()` (R151). -/
def completionStep (s : State) : Host.Outcome State Fault Refusal := .next s.endRun.completeOk

/-- The engine's step, if it has one (R148): none while IDLE. `CUR > END` is no state a run reaches
(R150), and no rule gives the engine a step there: log entry 13. Only a byte step accesses memory, so only
there does the platform's answer matter. -/
def engineStep (admits : Bool) (s : State) : Host.Outcome State Fault Refusal :=
  match s.phase with
  | .idle => .next s
  | .run =>
    if s.cur.toNat < s.endOff.toNat then byteStep admits s
    else if s.cur = s.endOff then completionStep s
    else .next s

end Sys2Proof.Machine
end

