-- ==== Sys2Proof/Machine/Flags.lean ====
section
/-! DEFINITION. STATUS (R23 to R25, 10_state.md), the block's only flags (R45). -/

namespace Sys2Proof.Machine

/-- R24. -/
def ErrKind.code : ErrKind → BitVec 4
  | .ok => 0
  | .invalidCurveSelector => 1
  | .nonContiguousBuffer => 2
  | .illegalCommand => 3

/-- STATUS.BUSY, a view of `int.PHASE` (R23). -/
def State.busy (s : State) : Bool := s.phase == .run

/-- `{23'b0, DROPPED, ERR[3:0], 2'b0, DONE, (int.PHASE = RUN)}` (R181). -/
def State.statusWord (s : State) : Word :=
  0#23 ++ BitVec.ofBool s.dropped ++ s.err.code ++ 0#2 ++ BitVec.ofBool s.done ++ BitVec.ofBool s.busy

/-- `reg[STATUS].DONE <- 0`, at every acceptance (R141, R172, R185). -/
def State.clearDone (s : State) : State := { s with done := false }

/-- A STATUS write: only bit 8 matters, and 1 clears DROPPED (R25, R182). -/
def State.writeStatus (s : State) (w : Word) : State :=
  if w.getLsbD 8 then { s with dropped := false } else s

end Sys2Proof.Machine
end

