-- ==== Sys2Proof/Machine/Apply.lean ====
section
/-! DEFINITION. APPLY (41_apply.md): what its CMD write does. The engine's steps that follow are in
Engine.lean. -/

namespace Sys2Proof.Machine

/-- `accept_APPLY()` (R141, checks in the order of R206). A command that passes validation, whatever its
selector, is refused on a misplaced buffer (R80); one that does not has its report: log entry 7. A command
that completes here closes no range to other agents: log entry 17. -/
def acceptApply (s : State) : Host.Outcome State Fault Refusal :=
  if SelectorInvalid s then .next (s.clearDone.report .invalidCurveSelector s.sel maxCurveId)
  else if Wraps s then .next (s.clearDone.report .nonContiguousBuffer 0 0)
  else if BufferMisplaced s then .fault .bufferPlacement
  else if s.sel = 0 then .next s.clearDone.completeOk
  else .next s.clearDone.beginRun

/-- APPLY (R140): accepted while IDLE (R183), dropped while RUN (R184). Log entry 16. -/
def execApply (s : State) : Host.Outcome State Fault Refusal :=
  match s.phase with
  | .run => .next s.drop
  | .idle => acceptApply s

end Sys2Proof.Machine
end

