-- ==== Sys2Proof/Machine/Eval.lean ====
section
/-! DEFINITION. EVAL (42_eval.md): it completes inside its CMD write. -/

namespace Sys2Proof.Machine

/-- The byte a successful EVAL returns (R172): the sample itself for the identity. -/
def evalByte (s : State) : Byte :=
  if s.sel = 0 then s.sample else lut (curveOf s.sel) s.sample

/-- `accept_EVAL()` (R171, R172). There is no buffer check (R173). -/
def acceptEval (s : State) : Host.Outcome State Fault Refusal :=
  if SelectorInvalid s then .next (s.clearDone.report .invalidCurveSelector s.sel maxCurveId)
  else .next { s.clearDone.completeOk with result := evalByte s }

/-- EVAL (R170): accepted while IDLE, dropped while RUN (R176). Log entry 16. -/
def execEval (s : State) : Host.Outcome State Fault Refusal :=
  match s.phase with
  | .run => .next s.drop
  | .idle => acceptEval s

end Sys2Proof.Machine
end

