-- ==== Sys2Proof/Machine/Dispatch.lean ====
section
/-! DEFINITION. One arm per command of spec/opcode_table.json. -/

namespace Sys2Proof.Machine

def exec (i : Instr) (s : State) : Host.Outcome State Fault Refusal :=
  match i with
  | .apply => Sys2Proof.Machine.execApply s
  | .eval => Sys2Proof.Machine.execEval s

end Sys2Proof.Machine
end

