-- ==== Sys2Proof/Machine/HostPort.lean ====
section
/-! DEFINITION. The host port (43_host_access.md): register reads and writes, and the CMD write that
issues a command. -/

namespace Sys2Proof.Machine

/-- The register map (R21), by word index: the offset is four times the slot. -/
def regAt (slot : BitVec 6) : Reg :=
  match slot.toNat with
  | 0 => .cmd
  | 1 => .status
  | 2 => .sel
  | 3 => .base
  | 4 => .len
  | 5 => .sample
  | 6 => .result
  | 7 => .errGiven
  | 8 => .errMax
  | 9 => .curveMax
  | n => if 16 ≤ n ∧ n < 32 then .name (BitVec.ofNat 4 (n - 16)) else .reserved

/-- The NAME ROM's words, from offset 0x40 (R34). -/
def nameRom : List Word := [
  0x656E6F6E#32, 0x00000000#32, 0x00000000#32, 0x00000000#32,
  0x6867696C#32, 0x68732074#32, 0x73656461#32, 0x00000000#32,
  0x2064696D#32, 0x64616873#32, 0x00007365#32, 0x00000000#32,
  0x6B726164#32, 0x61687320#32, 0x00736564#32, 0x00000000#32]

/-- `host_read(off)` (R181). -/
def hostRead (s : State) : Reg → Word
  | .cmd => 0
  | .status => s.statusWord
  | .sel => s.sel
  | .base => s.base
  | .len => s.len
  | .sample => zextByte s.sample
  | .result => zextByte s.result
  | .errGiven => s.errGiven
  | .errMax => s.errMax
  | .curveMax => maxCurveId
  | .name k => nameRom.getD k.toNat 0
  | .reserved => 0

/-- A STATUS read that shows BUSY = 0 is the host's acquire (R73, R76): it may from then on access every
range whose APPLY is over. No other read does anything but return its data. Log entries 6 and 15. -/
def State.acquireOn (s : State) (r : Reg) : State :=
  if r = .status ∧ s.phase = .idle then { s with unacquired := [] } else s

/-- A register read: the block's state stays as it is (R181). -/
def portRead (slot : BitVec 6) (s : State) : Host.Outcome State Fault Refusal :=
  .next ((s.acquireOn (regAt slot)).reply (.reg slot (hostRead s (regAt slot))))

/-- `accept_ILLEGAL()` (R185). -/
def acceptIllegal (s : State) : Host.Outcome State Fault Refusal :=
  .next (s.clearDone.report .illegalCommand 0 0)

/-- `cmd_write(w)` (R183, R184): while RUN the word is not decoded. -/
def cmdWrite (w : Word) (s : State) : Host.Outcome State Fault Refusal :=
  match s.phase with
  | .run => .next s.drop
  | .idle =>
    match decode w with
    | .ok i => exec i s
    | .error _ => acceptIllegal s

/-- `host_write(off, w)` (R182). -/
def hostWrite (r : Reg) (w : Word) (s : State) : Host.Outcome State Fault Refusal :=
  match r with
  | .cmd => cmdWrite w s
  | .status => .next (s.writeStatus w)
  | .sel => .next { s with sel := w }
  | .base => .next { s with base := truncAw s.cfg.aw w }
  | .len => .next { s with len := w }
  | .sample => .next { s with sample := truncSample w }
  | .result => .next s
  | .errGiven => .next s
  | .errMax => .next s
  | .curveMax => .next s
  | .name _ => .next s
  | .reserved => .next s

/-- A host port access of the given width (R180, R64). -/
def portAccess (bits : Nat) (access : PortAccess) (s : State) : Host.Outcome State Fault Refusal :=
  if bits ≠ 32 then .refused (.access bits access)
  else
    match access with
    | .read slot => portRead slot s
    | .write slot w => hostWrite (regAt slot) w s

end Sys2Proof.Machine
end

