-- ==== Sys2Proof/Machine/Reset.lean ====
section
/-! DEFINITION. Reset (70_reset_and_hazards.md R230 to R232). -/

namespace Sys2Proof.Machine

/-- What reset during RUN leaves at offset `i` of the processed range (R232): the byte's value before the
command, or its mapped value if the free choice `mapped` says so. -/
def resetByte (mapped : List Nat) (s : State) (i : Nat) : Byte :=
  let before := s.snapshot.read (s.lbase.toNat + i)
  if i ∈ mapped then lut s.lsel before else before

/-- The memory with the first `n` bytes of the processed range as R232 says. -/
def resetBytes (mapped : List Nat) (s : State) : Nat → Memory
  | 0 => s.mem
  | n + 1 => (resetBytes mapped s n).write (s.lbase.toNat + n) (resetByte mapped s n)

/-- Buffer memory is outside the block, so reset leaves it (R231), but for a running APPLY (R232). -/
def resetMemory (mapped : List Nat) (s : State) : Memory :=
  match s.phase with
  | .idle => s.mem
  | .run => resetBytes mapped s s.endOff.toNat

/-- Reset is asserted (R230): the block as `State.initial` has it; memory, and what is not the block's,
as above, and the other instances' territories. An abandoned APPLY's range stays closed to others until the host's STATUS read (R237). -/
def resetBlock (mapped : List Nat) (s : State) : State :=
  { State.initial s.cfg with
    mem := resetMemory mapped s
    unacquired := if s.phase = .run then s.runSpan :: s.unacquired else s.unacquired
    claims := s.claims
    inbox := s.inbox
    replies := s.replies }

end Sys2Proof.Machine
end

