-- ==== Sys2Proof/Machine/Events.lean ====
section
/-! DEFINITION. What each event does, and the host-program notation of R97 and R98 (30_encoding.md). -/

namespace Sys2Proof.Machine

/-- One atomic step of the agent the event names (R15, R66). -/
def runEvent (e : Event) (s : State) : Host.Outcome State Fault Refusal :=
  match e with
  | .port bits access => portAccess bits access s
  | .memRead agent a => memRead agent a s
  | .memWrite agent a v => memWrite agent a v s
  | .engine admits => engineStep admits s
  | .reset mapped => .next (resetBlock mapped s)
  | .otherRun id base size => .next (s.otherRun id base size)
  | .otherEnd id => .next (s.otherEnd id)

/-- The word index of a byte offset (R180). -/
def slotOf (offset : Nat) : BitVec 6 := BitVec.ofNat 6 (offset / 4)

/-- `rd NAME -> t`, by the register's offset (R97). -/
def rd (offset : Nat) : Event := .port 32 (.read (slotOf offset))

/-- `wr NAME, v`, by the register's offset (R97). -/
def wr (offset : Nat) (w : Word) : Event := .port 32 (.write (slotOf offset) w)

/-- `mw a, [b0, b1, ...]` (R97). -/
def mw (a : Nat) : List Byte → List Event
  | [] => []
  | b :: rest => .memWrite .host a b :: mw (a + 1) rest

/-- `mr a, n -> t` (R97). -/
def mr (a : Nat) : Nat → List Event
  | 0 => []
  | n + 1 => .memRead .host a :: mr (a + 1) n

/-- `poll` that takes `n` reads of STATUS (R97). How many a poll takes depends on the engine, so a claim
about a poll is a claim for every `n` whose last read shows BUSY = 0. -/
def poll (n : Nat) : List Event := List.replicate n (rd 0x04)

/-- `apply s, b, n` with a poll of `k` reads (R98). -/
def applySequence (s b n : Word) (k : Nat) : List Event :=
  [wr 0x08 s, wr 0x0C b, wr 0x10 n, wr 0x00 (encode .apply)] ++ poll k

/-- `eval s, x` (R98). -/
def evalSequence (s x : Word) : List Event :=
  [wr 0x08 s, wr 0x14 x, wr 0x00 (encode .eval), rd 0x18]

end Sys2Proof.Machine
end

