-- ==== Sys2Proof/Machine/Step.lean ====
section
/-! DEFINITION. The step: the next event of the inbox; with none left, the engine runs on, which is the
weak fairness of R16 (00_scope.md), on a platform that then rejects ordinary memory no more (log entry 2).
There is no program counter and no fetch (R35, R78): a command comes
as a CMD write. -/

namespace Sys2Proof.Machine

/-- With an empty inbox and the engine IDLE the block waits (R233): the state stays. -/
def step (s : State) : Host.Outcome State Fault Refusal :=
  match s.inbox with
  | [] => engineStep true s
  | e :: rest => runEvent e { s with inbox := rest }

/-- The state whose very next step is the CMD write of a table row's word, accepted: it is the first
event of the inbox, and no APPLY is running (a CMD write while RUN is dropped, R184). Log entry 8. -/
def State.withFetchWord (s : State) (nbits w : Nat) : State :=
  { s with phase := .idle, inbox := .port 32 (.write 0 (tableWord nbits w)) :: s.inbox }

end Sys2Proof.Machine
end

