-- ==== Sys2Proof/Safety.lean ====
section
/-! DEFINITION. Runs, final states, and the invariant of the block, in the terms the claims use. -/

namespace Sys2Proof.Machine

/-- `k` steps, stopping at the first fault or refusal. -/
def runFor : Nat → State → Host.Outcome State Fault Refusal
  | 0, s => .next s
  | k + 1, s =>
    match step s with
    | .next t => runFor k t
    | .fault p => .fault p
    | .refused p => .refused p

/-- A host access, to the register space or to buffer memory (R15, R60). -/
def Event.ofHost : Event → Bool
  | .port _ _ => true
  | .memRead agent _ => agent == .host
  | .memWrite agent _ _ => agent == .host
  | .engine _ => false
  | .reset _ => false
  | .otherRun _ _ _ => false
  | .otherEnd _ => false

/-- The end of a host program (R242): its last access has been performed, so that none waits, and PHASE is
IDLE. Events of the other agents may still wait. A state with PHASE = RUN is never final. -/
abbrev Final (s : State) : Prop := (∀ e ∈ s.inbox, e.ofHost = false) ∧ s.phase = .idle

/-- No step of the run stops (R219: a faulted state is never final). -/
def Safe (s : State) : Prop := ∀ k, ∃ t, runFor k s = .next t

/-- The engine moves next, `admits` is the platform's answer and `rest` the inbox after it: an engine event
stands first, or nothing is left to happen (R16). -/
abbrev EngineTurn (s : State) (admits : Bool) (rest : List Event) : Prop :=
  (s.inbox = [] ∧ admits = true ∧ rest = []) ∨ s.inbox = .engine admits :: rest

/-- An event no rule lets stop the machine where all memory is ordinary and no other instance runs: a 32-bit
host port access, an engine step the platform admits, a reset, the end of another MTC's run. -/
def Event.benign : Event → Bool
  | .port bits _ => bits == 32
  | .memRead _ _ => false
  | .memWrite _ _ _ => false
  | .engine admits => admits
  | .reset _ => true
  | .otherRun _ _ _ => false
  | .otherEnd _ => true

/-- The state with the internal registers no rule reads while IDLE (R37) forgotten. -/
def forgetIdle (s : State) : State :=
  if s.phase = .idle then { s with lsel := 0, lbase := 0, endOff := 0, cur := 0, snapshot := [] } else s

/-- The same outcome, but for what is forgotten while IDLE. -/
def Indistinct : Host.Outcome State Fault Refusal → Host.Outcome State Fault Refusal → Prop
  | .next s, .next t => forgetIdle s = forgetIdle t
  | .fault p, .fault q => p = q
  | .refused p, .refused q => p = q
  | _, _ => False

/-- What every reachable state satisfies. -/
structure Inv (s : State) : Prop where
  /-- `1 <= AW <= 32` (R11). -/
  cfgWf : s.cfg.wf = true
  /-- The memories keep their canonical form. -/
  memWf : Memory.wf s.mem
  snapshotWf : Memory.wf s.snapshot
  /-- Only bytes that exist hold a value (R60). -/
  memBelow : ∀ c ∈ s.mem, c.1 < 2 ^ s.cfg.aw
  /-- BASE and `int.LBASE` hold `AW` bits (R27, R37). -/
  baseBelow : s.base.toNat < 2 ^ s.cfg.aw
  lbaseBelow : s.lbase.toNat < 2 ^ s.cfg.aw
  /-- `CUR <= END` (R42), and END is a number of whole groups (R41). -/
  curLeEnd : s.cur.toNat ≤ s.endOff.toNat
  endWhole : s.endOff.toNat % stride = 0
  /-- ERR_GIVEN and ERR_MAX record the offending selector and 3, or 0 and 0 (R31, R32, R201). -/
  errInvalid : s.err = .invalidCurveSelector →
    maxCurveId.toNat < s.errGiven.toNat ∧ s.errMax = maxCurveId
  errOther : s.err ≠ .invalidCurveSelector → s.errGiven = 0 ∧ s.errMax = 0
  /-- While RUN: not DONE (R145), LSEL is 1, 2 or 3 (R37), the range ends within buffer memory (R143)
  and touches no device and no register (R80). -/
  runNotDone : s.phase = .run → s.done = false
  runSelector : s.phase = .run → s.lsel ≠ 0
  runInMemory : s.phase = .run → s.lbase.toNat + s.endOff.toNat ≤ 2 ^ s.cfg.aw
  runPlaced : s.phase = .run → ¬ Misplaced s.cfg s.lbase.toNat s.endOff.toNat
  /-- While RUN: the first CUR bytes of the range are mapped, the others are as at acceptance (R147,
  R149, R153). -/
  runMapped : s.phase = .run → ∀ i, i < s.cur.toNat →
    s.mem.read (s.lbase.toNat + i) = lut s.lsel (s.snapshot.read (s.lbase.toNat + i))
  runUnmapped : s.phase = .run → ∀ i, s.cur.toNat ≤ i → i < s.endOff.toNat →
    s.mem.read (s.lbase.toNat + i) = s.snapshot.read (s.lbase.toNat + i)

end Sys2Proof.Machine
end

