-- ==== Sys2Proof/Certificates/Slice0/Obligations.lean ====
section
/-! DEFINITION. The statements for the provers. A docstring that names a log entry says which clause is
the model's choice and not a rule of the spec. -/

open Sys2Proof Sys2Proof.Machine

/-! ### Command words (30_encoding.md) -/

/-- The words of 95_test_vectors.md 2.2, written out from R90 and R92. -/
def Obligations.TableWordsDecode : Prop :=
  decode 0x00000001 = .ok .apply ∧ decode 0x00000002 = .ok .eval ∧
  decode 0x00000000 = .error .reservedOpcode ∧ decode 0x00000003 = .error .reservedOpcode ∧
  decode 0x000000FF = .error .reservedOpcode ∧ decode 0x00000101 = .error .mbzNonZero ∧
  decode 0x80000001 = .error .mbzNonZero ∧ decode 0xFFFFFFFF = .error .mbzNonZero

/-- R91: exactly two words are legal; which words are ILLEGAL by MBZ and which by OPCODE. -/
def Obligations.ExactlyTwoWordsAreLegal : Prop :=
  ∀ w : Word,
    (decode w = .ok .apply ↔ w.toNat = 1) ∧ (decode w = .ok .eval ↔ w.toNat = 2) ∧
    (decode w = .error .mbzNonZero ↔ 256 ≤ w.toNat) ∧
    (decode w = .error .reservedOpcode ↔ w.toNat < 256 ∧ w.toNat ≠ 1 ∧ w.toNat ≠ 2)

/-- Decoder and encoder agree in both directions, and so does the decoder of table rows. -/
def Obligations.DecodeAndEncodeAgree : Prop :=
  ∀ i : Instr, i.wf = true →
    (∀ w : Word, decode w = .ok i ↔ w = encode i) ∧
    (∀ w : Nat, decodeTableWord 32 w = some i ↔ w % 2 ^ 32 = (encode i).toNat)

/-! ### From a CMD write to its command (43_host_access.md) -/

/-- R183: a CMD write of a word that decodes to a command is `exec` of that command, after the event is taken
from the inbox. While RUN, where R184 has the word neither decoded nor executed, this holds because `exec`
itself then drops the command: that is the model's own (log entry 16). -/
def Obligations.StepRunsTheDecodedCommand : Prop :=
  ∀ (s : State) (w : Word) (rest : List Event) (i : Instr),
    s.inbox = wr 0x00 w :: rest → decode w = .ok i → i.wf = true →
    step s = exec i { s with inbox := rest }

/-- `withFetchWord` makes the very next step run the command. The model's own (log entry 8). -/
def Obligations.FetchWordRunsTheCommand : Prop :=
  ∀ (s : State) (i : Instr),
    step (s.withFetchWord 32 (encode i).toNat) = exec i { s with phase := .idle }

/-- R184. -/
def Obligations.BusyCommandIsDropped : Prop :=
  ∀ (s : State) (w : Word) (rest : List Event),
    s.inbox = wr 0x00 w :: rest → s.phase = .run →
    step s = .next { s with inbox := rest, dropped := true }

/-- `exec` of either command drops it while RUN. R184 and R176 say that of the CMD write; that the meanings
do so themselves is the model's own (log entry 16). -/
def Obligations.CommandsAreDroppedWhileBusy : Prop :=
  ∀ (i : Instr) (s : State), s.phase = .run → exec i s = .next { s with dropped := true }

/-- R185. -/
def Obligations.IllegalCommandIsReported : Prop :=
  ∀ (s : State) (w : Word) (rest : List Event),
    s.inbox = wr 0x00 w :: rest → s.phase = .idle → w.toNat ≠ 1 → w.toNat ≠ 2 →
    step s = .next { s with
      inbox := rest, done := true, err := .illegalCommand, errGiven := 0, errMax := 0 }

/-! ### EVAL (42_eval.md) -/

/-- R172 with R171: EVAL's whole effect and frame, for every selector. -/
def Obligations.EvalCompletes : Prop :=
  ∀ s : State, s.phase = .idle →
    (s.sel.toNat = 0 → exec .eval s = .next { s with
      result := s.sample, done := true, err := .ok, errGiven := 0, errMax := 0 }) ∧
    (0 < s.sel.toNat → s.sel.toNat ≤ 3 → exec .eval s = .next { s with
      result := lut (BitVec.ofNat 2 s.sel.toNat) s.sample
      done := true, err := .ok, errGiven := 0, errMax := 0 }) ∧
    (3 < s.sel.toNat → exec .eval s = .next { s with
      done := true, err := .invalidCurveSelector, errGiven := s.sel, errMax := 3 })

/-- R173: BASE and LEN are ignored, and NON_CONTIGUOUS_BUFFER is never reported. -/
def Obligations.EvalIgnoresTheBuffer : Prop :=
  ∀ (s t : State) (b n : Word), s.phase = .idle → exec .eval s = .next t →
    t.err ≠ .nonContiguousBuffer ∧
    exec .eval { s with base := b, len := n } = .next { t with base := b, len := n }

/-- R175: for curves 1 to 3, EVAL returns the byte an APPLY's byte step writes over the same byte; for
selector 0 an APPLY writes nothing and EVAL returns the sample. -/
def Obligations.EvalAgreesWithApply : Prop :=
  ∀ s t : State, s.phase = .idle → s.sel.toNat ≤ 3 → exec .eval s = .next t →
    (0 < s.sel.toNat → ∀ u v : State,
      u.phase = .run → u.cur.toNat < u.endOff.toNat → u.lsel = BitVec.ofNat 2 s.sel.toNat →
      u.mem.read u.nextAddr = s.sample → engineStep true u = .next v →
      v.mem.read u.nextAddr = t.result) ∧
    (s.sel.toNat = 0 → t.result = s.sample ∧
      ∀ u : State, exec .apply s = .next u → u.phase = .idle ∧ ∀ a, u.mem.read a = s.mem.read a)

/-! ### APPLY: acceptance (41_apply.md) -/

/-- R142. -/
def Obligations.ApplyRejectsASelectorAboveThree : Prop :=
  ∀ s : State, s.phase = .idle → 3 < s.sel.toNat →
    exec .apply s = .next { s with
      done := true, err := .invalidCurveSelector, errGiven := s.sel, errMax := 3 }

/-- R143: for every selector that passed, and only past the top; a buffer that ends exactly at the top is
legal. -/
def Obligations.ApplyRejectsAWrappingBuffer : Prop :=
  ∀ s : State, s.phase = .idle → s.sel.toNat ≤ 3 →
    (2 ^ s.cfg.aw < s.base.toNat + s.len.toNat → exec .apply s = .next { s with
      done := true, err := .nonContiguousBuffer, errGiven := 0, errMax := 0 }) ∧
    (s.base.toNat + s.len.toNat ≤ 2 ^ s.cfg.aw → ∀ t, exec .apply s = .next t →
      ¬ (t.done = true ∧ t.err = .nonContiguousBuffer))

/-- R144. That a misplaced buffer is set apart is R80 (log entry 7): `ApplyRefusesAMisplacedBuffer` has it. -/
def Obligations.ApplyIdentityTouchesNothing : Prop :=
  ∀ s : State, s.phase = .idle → s.sel.toNat = 0 → s.base.toNat + s.len.toNat ≤ 2 ^ s.cfg.aw →
    (∀ a, s.base.toNat ≤ a → a < s.base.toNat + s.len.toNat →
      ∀ r ∈ s.cfg.memMap, r.kind ≠ .hole → ¬ Contains r a) →
    exec .apply s = .next { s with done := true, err := .ok, errGiven := 0, errMax := 0 }

/-- R145. The last field, the snapshot, is the model's own (log entry 4). That a misplaced buffer is set
apart is R80 (log entry 7). -/
def Obligations.ApplyEntersRun : Prop :=
  ∀ s : State, s.phase = .idle → 0 < s.sel.toNat → s.sel.toNat ≤ 3 →
    s.base.toNat + s.len.toNat ≤ 2 ^ s.cfg.aw →
    (∀ a, s.base.toNat ≤ a → a < s.base.toNat + s.len.toNat →
      ∀ r ∈ s.cfg.memMap, r.kind ≠ .hole → ¬ Contains r a) →
    exec .apply s = .next { s with
      lsel := BitVec.ofNat 2 s.sel.toNat, lbase := s.base
      endOff := BitVec.ofNat 32 (3 * (s.len.toNat / 3)), cur := 0
      phase := .run, done := false, snapshot := s.mem }

/-- R80: an APPLY that passes validation, the identity's too, is refused exactly when a byte of its buffer
lies in a device or in the register space. That one that fails validation has its report instead (R206) is
log entry 7. -/
def Obligations.ApplyRefusesAMisplacedBuffer : Prop :=
  ∀ s : State, s.phase = .idle →
    (exec .apply s = .fault .bufferPlacement ↔
      s.sel.toNat ≤ 3 ∧ s.base.toNat + s.len.toNat ≤ 2 ^ s.cfg.aw ∧
      ∃ a, s.base.toNat ≤ a ∧ a < s.base.toNat + s.len.toNat ∧
        ∃ r ∈ s.cfg.memMap, r.kind ≠ .hole ∧ Contains r a)

/-! ### What commands leave unchanged -/

/-- The frame of both commands: acceptance reads and writes no byte of buffer memory and changes no
operand register (R140, R155, R170); DROPPED changes only when the command is dropped; RESULT changes only
by EVAL (R30). That a command closes no range and opens none is the model's own (log entry 17), and so is that
`exec` drops while RUN (log entry 16); that the parameters, the inbox, the replies and the territories stay is
said of fields of the model's own (log entries 1, 2, 3 and 14). -/
def Obligations.CommandFrame : Prop :=
  ∀ (i : Instr) (s t : State), exec i s = .next t →
    (∀ a, t.mem.read a = s.mem.read a) ∧
    t.cfg = s.cfg ∧ t.sel = s.sel ∧ t.base = s.base ∧ t.len = s.len ∧ t.sample = s.sample ∧
    t.unacquired = s.unacquired ∧ t.claims = s.claims ∧ t.inbox = s.inbox ∧ t.replies = s.replies ∧
    (s.phase = .idle → t.dropped = s.dropped) ∧
    (i = .apply → t.result = s.result) ∧
    (i = .eval → t.phase = s.phase ∧ t.lsel = s.lsel ∧ t.lbase = s.lbase ∧ t.endOff = s.endOff ∧
      t.cur = s.cur)

/-- R205: only the accepting step of a command reports an error, and a CMD write that ends in an error
changes DONE, ERR, ERR_GIVEN and ERR_MAX and nothing else. -/
def Obligations.ErrorsArePrecise : Prop :=
  ∀ s t : State, step s = .next t → t.done = true → t.err ≠ .ok →
    (t.err ≠ s.err ∨ s.done = false →
      ∃ w rest, s.inbox = wr 0x00 w :: rest ∧ s.phase = .idle) ∧
    (∀ w rest, s.inbox = wr 0x00 w :: rest → s.phase = .idle → t = { s with
      inbox := rest, done := true, err := t.err, errGiven := t.errGiven, errMax := t.errMax })

/-- R207: a command that completed at its acceptance, issued again on what it left, reports the same. -/
def Obligations.RetryReportsTheSame : Prop :=
  ∀ (i : Instr) (s t : State), s.phase = .idle → exec i s = .next t → t.done = true →
    exec i t = .next t

/-! ### APPLY: the engine (41_apply.md) -/

/-- R149: the byte at LBASE + CUR is mapped, CUR advances, nothing else changes; an access the platform
rejects is the model fault of R70. That the platform rejects an address that is not ordinary memory, and that
the event tells of any other rejection, is the model's own (log entry 2). `Foreign` is R81 (log entry 14). -/
def Obligations.ByteStepMapsOneByte : Prop :=
  ∀ (s : State) (admits : Bool) (rest : List Event), EngineTurn s admits rest → s.phase = .run →
    s.cur.toNat < s.endOff.toNat → ¬ Foreign s (s.lbase.toNat + s.cur.toNat) →
    (admits = true → Ordinary s.cfg (s.lbase.toNat + s.cur.toNat) →
      ∃ m : Memory, step s = .next { s with inbox := rest, mem := m, cur := s.cur + 1 } ∧
        m.read (s.lbase.toNat + s.cur.toNat) =
          lut s.lsel (s.mem.read (s.lbase.toNat + s.cur.toNat)) ∧
        ∀ a, a ≠ s.lbase.toNat + s.cur.toNat → m.read a = s.mem.read a) ∧
    (admits = false ∨ ¬ Ordinary s.cfg (s.lbase.toNat + s.cur.toNat) →
      step s = .fault (.memPortError (s.lbase.toNat + s.cur.toNat)))

/-- R151. The step accesses no memory, so the platform's answer does not matter. (`closed` is the model's own bookkeeping of R237, log entry 6: nothing is said of it here.) -/
def Obligations.CompletionStepReportsSuccess : Prop :=
  ∀ (s : State) (admits : Bool) (rest : List Event), EngineTurn s admits rest → s.phase = .run →
    s.cur = s.endOff →
    ∃ closed : List Span, step s = .next { s with
      inbox := rest, phase := .idle, done := true, err := .ok, errGiven := 0, errMax := 0
      unacquired := closed }

/-- R148, R218, R233: while IDLE the engine has no step and the block waits. -/
def Obligations.IdleEngineHasNoStep : Prop :=
  ∀ (s : State) (admits : Bool) (rest : List Event), EngineTurn s admits rest → s.phase = .idle →
    step s = .next { s with inbox := rest }

/-- R152 and R154: from its acceptance an APPLY of curve 1 to 3 takes exactly END + 1 engine steps; it is
RUN in every state before the last and IDLE after it, reports OK, has mapped every byte of the whole
groups from its value at acceptance, and has changed no other byte and no operand register. That the
platform admits ordinary memory and rejects the rest is log entry 2, the premise on `Misplaced` log entry 7,
the premise on `Foreign` R81 (log entry 14). -/
def Obligations.ApplyMapsTheWholeGroups : Prop :=
  ∀ s : State, s.inbox = [] → s.phase = .idle → 0 < s.sel.toNat → s.sel.toNat ≤ 3 →
    s.base.toNat + s.len.toNat ≤ 2 ^ s.cfg.aw → ¬ Misplaced s.cfg s.base.toNat s.len.toNat →
    (∀ i, i < 3 * (s.len.toNat / 3) →
      Ordinary s.cfg (s.base.toNat + i) ∧ ¬ Foreign s (s.base.toNat + i)) →
    ∃ t u : State, exec .apply s = .next t ∧ runFor (3 * (s.len.toNat / 3) + 1) t = .next u ∧
      (∀ k, k ≤ 3 * (s.len.toNat / 3) → ∃ v, runFor k t = .next v ∧ v.phase = .run) ∧
      Final u ∧ u.inbox = [] ∧ u.done = true ∧ u.err = .ok ∧ u.errGiven = 0 ∧ u.errMax = 0 ∧
      (∀ i, i < 3 * (s.len.toNat / 3) →
        u.mem.read (s.base.toNat + i) =
          lut (BitVec.ofNat 2 s.sel.toNat) (s.mem.read (s.base.toNat + i))) ∧
      (∀ a, (a < s.base.toNat ∨ s.base.toNat + 3 * (s.len.toNat / 3) ≤ a) →
        u.mem.read a = s.mem.read a) ∧
      u.sel = s.sel ∧ u.base = s.base ∧ u.len = s.len ∧ u.sample = s.sample ∧
      u.result = s.result ∧ u.dropped = s.dropped

/-- R187: the engine changes what a register reads as only at its completion, and then only STATUS,
ERR_GIVEN and ERR_MAX. -/
def Obligations.EngineChangesOnlyTheReport : Prop :=
  ∀ (admits : Bool) (s t : State), engineStep admits s = .next t →
    (∀ r, r ≠ .status → r ≠ .errGiven → r ≠ .errMax → hostRead t r = hostRead s r) ∧
    (t.phase = s.phase → ∀ r, hostRead t r = hostRead s r)

/-- R240: a write to SEL, BASE, LEN or SAMPLE and a step of the engine may change places. -/
def Obligations.OperandWritesCommuteWithTheEngine : Prop :=
  ∀ (s : State) (offset : Nat) (w : Word) (admits : Bool) (rest : List Event),
    offset = 0x08 ∨ offset = 0x0C ∨ offset = 0x10 ∨ offset = 0x14 →
    runFor 2 { s with inbox := wr offset w :: .engine admits :: rest } =
      runFor 2 { s with inbox := .engine admits :: wr offset w :: rest }

/-! ### Host register access (43_host_access.md, 10_state.md) -/

/-- R181: what every offset reads as, and that a read changes nothing but what the host holds. (`closed`
is the model's own bookkeeping of R73 and R237 at a STATUS read, log entry 6: nothing is said of it here.) -/
def Obligations.RegisterReads : Prop :=
  ∀ (s : State) (rest : List Event),
    let got := fun offset v => step { s with inbox := rd offset :: rest } =
      .next { s with inbox := rest, replies := .reg (slotOf offset) v :: s.replies }
    got 0x00 0 ∧ got 0x08 s.sel ∧ got 0x0C s.base ∧ got 0x10 s.len ∧
    got 0x14 (s.sample.setWidth 32) ∧ got 0x18 (s.result.setWidth 32) ∧
    got 0x1C s.errGiven ∧ got 0x20 s.errMax ∧ got 0x24 3 ∧
    (∀ k, k < 16 → got (0x40 + 4 * k) (nameRom.getD k 0)) ∧
    (∀ k, k < 64 → 0x28 ≤ 4 * k ∧ 4 * k ≤ 0x3C ∨ 0x80 ≤ 4 * k ∧ 4 * k ≤ 0xFC → got (4 * k) 0) ∧
    ∃ closed : List Span, step { s with inbox := rd 0x04 :: rest } = .next { s with
      inbox := rest
      unacquired := closed
      replies := .reg (slotOf 0x04)
        (0#23 ++ BitVec.ofBool s.dropped ++ s.err.code ++ 0#2 ++ BitVec.ofBool s.done ++
          BitVec.ofBool (s.phase == .run)) :: s.replies }

/-- R23, R24, R181: the fields of STATUS. -/
def Obligations.StatusFields : Prop :=
  ∀ s : State,
    s.statusWord.toNat =
      (if s.phase = .run then 1 else 0) + (if s.done then 2 else 0) +
      16 * (match s.err with
        | .ok => 0 | .invalidCurveSelector => 1 | .nonContiguousBuffer => 2 | .illegalCommand => 3) +
      (if s.dropped then 256 else 0)

/-- R34: the NAME ROM holds the registry's names, by the character codes of 93_implementation_defined.md. -/
def Obligations.NameRomHoldsTheNames : Prop :=
  ∀ (c k : Nat), c < 4 → k < 16 → ∀ s : State,
    (hostRead s (regAt (slotOf (0x40 + 16 * c + 4 * (k / 4))))).toNat / 2 ^ (8 * (k % 4)) % 256 =
      (([['n', 'o', 'n', 'e'],
          ['l', 'i', 'g', 'h', 't', ' ', 's', 'h', 'a', 'd', 'e', 's'],
          ['m', 'i', 'd', ' ', 's', 'h', 'a', 'd', 'e', 's'],
          ['d', 'a', 'r', 'k', ' ', 's', 'h', 'a', 'd', 'e', 's']].getD c []).map Char.toNat).getD k 0

/-- R182: what a write does at every offset. -/
def Obligations.RegisterWrites : Prop :=
  ∀ (s : State) (rest : List Event) (w : Word),
    let wrote := fun offset => step { s with inbox := wr offset w :: rest }
    wrote 0x00 = cmdWrite w { s with inbox := rest } ∧
    wrote 0x04 = .next { s with
      inbox := rest, dropped := if w.toNat / 256 % 2 = 1 then false else s.dropped } ∧
    wrote 0x08 = .next { s with inbox := rest, sel := w } ∧
    (∃ b : Word, wrote 0x0C = .next { s with inbox := rest, base := b } ∧
      b.toNat = w.toNat % 2 ^ s.cfg.aw) ∧
    wrote 0x10 = .next { s with inbox := rest, len := w } ∧
    (∃ b : Byte, wrote 0x14 = .next { s with inbox := rest, sample := b } ∧
      b.toNat = w.toNat % 256) ∧
    (∀ k, k < 64 → 0x18 ≤ 4 * k → wrote (4 * k) = .next { s with inbox := rest })

/-- R235: a register write is visible to the next host read of that register; BASE and SAMPLE read back
the bits they hold (R27, R29). -/
def Obligations.WrittenRegistersReadBack : Prop :=
  ∀ (s : State) (w : Word) (rest : List Event) (offset v : Nat),
    (offset = 0x08 ∧ v = w.toNat) ∨ (offset = 0x0C ∧ v = w.toNat % 2 ^ s.cfg.aw) ∨
      (offset = 0x10 ∧ v = w.toNat) ∨ (offset = 0x14 ∧ v = w.toNat % 256) →
    ∃ t : State, runFor 2 { s with inbox := wr offset w :: rd offset :: rest } = .next t ∧
      t.replies = .reg (slotOf offset) (BitVec.ofNat 32 v) :: s.replies ∧ t.inbox = rest

/-- R64: a host access of another width is refused. -/
def Obligations.OtherWidthsAreRefused : Prop :=
  ∀ (s : State) (bits : Nat) (access : PortAccess) (rest : List Event),
    s.inbox = .port bits access :: rest → bits ≠ 32 → step s = .refused (.access bits access)

/-- R25: what a step leaves in DROPPED, and that setting or clearing it does nothing else. -/
def Obligations.DroppedIsSticky : Prop :=
  ∀ s t : State, step s = .next t →
    (∀ w rest, s.inbox = wr 0x00 w :: rest → s.phase = .run →
      t = { s with inbox := rest, dropped := true }) ∧
    (∀ w rest, s.inbox = wr 0x04 w :: rest →
      t = { s with inbox := rest, dropped := if w.toNat / 256 % 2 = 1 then false else s.dropped }) ∧
    (∀ mapped rest, s.inbox = .reset mapped :: rest → t.dropped = false) ∧
    (t.dropped ≠ s.dropped →
      (∃ w rest, s.inbox = wr 0x00 w :: rest ∧ s.phase = .run) ∨
      (∃ w rest, s.inbox = wr 0x04 w :: rest ∧ w.toNat / 256 % 2 = 1) ∨
      ∃ mapped rest, s.inbox = .reset mapped :: rest)

/-- R30: RESULT changes only by a successful EVAL and by reset. -/
def Obligations.ResultChangesOnlyByEval : Prop :=
  ∀ s t : State, step s = .next t → t.result ≠ s.result →
    (∃ rest, s.inbox = wr 0x00 0x00000002 :: rest ∧ s.phase = .idle ∧ s.sel.toNat ≤ 3) ∨
    ∃ mapped rest, s.inbox = .reset mapped :: rest

/-- R38, R236: RUN begins only with an APPLY that passes validation with a selector other than 0, and ends
only with the completion step or a reset. -/
def Obligations.PhaseChanges : Prop :=
  ∀ s t : State, step s = .next t →
    (s.phase = .idle → t.phase = .run →
      ∃ rest, s.inbox = wr 0x00 0x00000001 :: rest ∧ 0 < s.sel.toNat ∧ s.sel.toNat ≤ 3 ∧
        s.base.toNat + s.len.toNat ≤ 2 ^ s.cfg.aw) ∧
    (s.phase = .run → t.phase = .idle →
      (∃ admits rest, EngineTurn s admits rest ∧ s.cur = s.endOff) ∨
      ∃ mapped rest, s.inbox = .reset mapped :: rest)

/-- R39, R40, R41, R150: while RUN the latched operands (and the model's snapshot, log entry 4) do not
change, and CUR changes only by a byte step, by 1. -/
def Obligations.LatchedOperandsAreFixed : Prop :=
  ∀ s t : State, step s = .next t → s.phase = .run → t.phase = .run →
    t.lsel = s.lsel ∧ t.lbase = s.lbase ∧ t.endOff = s.endOff ∧ t.snapshot = s.snapshot ∧
    (t.cur = s.cur ∨
      t.cur = s.cur + 1 ∧ s.cur.toNat < s.endOff.toNat ∧ ∃ rest, EngineTurn s true rest)

/-- R10, R61, R68: the OPEN parameters are fixed for the machine. That they are data of the state that no step
changes is the model's own (log entries 1 and 2). -/
def Obligations.ParametersNeverChange : Prop :=
  ∀ s t : State, step s = .next t → t.cfg = s.cfg

/-! ### Buffer memory and the other agents (20_memory.md) -/

/-- R60, R78, R153: which step may change which byte. -/
def Obligations.OnlyTheseStepsChangeMemory : Prop :=
  ∀ (s t : State) (a : Nat), step s = .next t → t.mem.read a ≠ s.mem.read a →
    (∃ rest, EngineTurn s true rest ∧ s.phase = .run ∧ s.cur.toNat < s.endOff.toNat ∧
      a = s.lbase.toNat + s.cur.toNat) ∨
    (∃ agent v rest, s.inbox = .memWrite agent a v :: rest) ∨
    (∃ mapped rest, s.inbox = .reset mapped :: rest ∧ s.phase = .run ∧
      s.lbase.toNat ≤ a ∧ a < s.lbase.toNat + s.endOff.toNat)

/-- R74: while RUN an access of another agent to the processed range is the model fault. -/
def Obligations.RacingAccessFaults : Prop :=
  ∀ (s : State) (agent : Agent) (a : Nat) (v : Byte) (rest : List Event),
    s.phase = .run → s.lbase.toNat ≤ a → a < s.lbase.toNat + s.endOff.toNat → a < 2 ^ s.cfg.aw →
    s.inbox = .memRead agent a :: rest ∨ s.inbox = .memWrite agent a v :: rest →
    step s = .fault (.bufferRace a)

/-- R75: a host access to a byte of ordinary memory that is closed to no one goes through, whatever the
engine does: a read returns the byte, a write changes that byte alone. What is closed is R74, R237 (log
entry 6) and R81 (log entry 14). That every access takes effect at once, in the order of the inbox, is log
entry 10; what the clauses say of the other agents, whose reads are recorded nowhere, is the model's own
(log entry 11). -/
def Obligations.OpenBytesAreFreeToUse : Prop :=
  ∀ (s : State) (agent : Agent) (a : Nat) (v : Byte) (rest : List Event),
    Ordinary s.cfg a → (s.phase = .run → a < s.lbase.toNat ∨ s.lbase.toNat + s.endOff.toNat ≤ a) →
    (∀ p ∈ s.unacquired, a < p.base ∨ p.base + p.size ≤ a) →
    (∀ c ∈ s.claims, a < c.span.base ∨ c.span.base + c.span.size ≤ a) →
    step { s with inbox := .memRead .host a :: rest } =
      .next { s with inbox := rest, replies := .byte a (s.mem.read a) :: s.replies } ∧
    (agent ≠ .host → step { s with inbox := .memRead agent a :: rest } = .next { s with inbox := rest }) ∧
    ∃ m : Memory, step { s with inbox := .memWrite agent a v :: rest } =
        .next { s with inbox := rest, mem := m } ∧
      m.read a = v ∧ ∀ b, b ≠ a → m.read b = s.mem.read b

/-- R237 (log entry 6): a range whose APPLY is over, by the completion step or by a reset, is closed to every
agent's reads and writes, until a STATUS read that shows BUSY = 0 and by no other step. -/
def Obligations.UnseenCompletionStaysClosed : Prop :=
  (∀ (s : State) (agent : Agent) (a : Nat) (v : Byte) (rest : List Event),
    (∃ p ∈ s.unacquired, p.Holds a) → a < 2 ^ s.cfg.aw →
    s.inbox = .memRead agent a :: rest ∨ s.inbox = .memWrite agent a v :: rest →
    step s = .fault (.bufferRace a)) ∧
  (∀ (s t : State) (p : Span), step s = .next t → p ∈ s.unacquired →
    p ∈ t.unacquired ∨ ∃ rest, s.phase = .idle ∧ s.inbox = rd 0x04 :: rest) ∧
  ∀ (s : State) (agent : Agent) (a : Nat) (v : Byte) (admits : Bool) (mapped : List Nat)
      (rest : List Event),
    s.phase = .run → s.lbase.toNat ≤ a → a < s.lbase.toNat + s.endOff.toNat → a < 2 ^ s.cfg.aw →
    ∀ e, e = .memRead agent a ∨ e = .memWrite agent a v →
      (s.cur = s.endOff →
        runFor 2 { s with inbox := .engine admits :: e :: rest } = .fault (.bufferRace a)) ∧
      runFor 2 { s with inbox := .reset mapped :: e :: rest } = .fault (.bufferRace a)

/-- R81: the territory of another MTC's running APPLY is closed to this block's engine, to the host, to every
other bus master and to a third MTC; its owner's access goes through where nothing else forbids it. How a
territory begins and ends is the model's own (log entry 14), and so is that the race is recorded where the
platform rejects the access too (log entry 18). -/
def Obligations.ForeignTerritoryIsClosed : Prop :=
  ∀ (s : State) (c : Claim) (a : Nat) (v : Byte) (rest : List Event), c ∈ s.claims → c.span.Holds a →
    (∀ admits, EngineTurn s admits rest → s.phase = .run → s.cur.toNat < s.endOff.toNat →
      a = s.lbase.toNat + s.cur.toNat → step s = .fault (.bufferRace a)) ∧
    (∀ agent : Agent, agent ≠ .mtc c.owner → a < 2 ^ s.cfg.aw →
      s.inbox = .memRead agent a :: rest ∨ s.inbox = .memWrite agent a v :: rest →
      step s = .fault (.bufferRace a)) ∧
    (Ordinary s.cfg a → ¬ Exclusive s a → (∀ d ∈ s.claims, d.span.Holds a → d.owner = c.owner) →
      step { s with inbox := .memRead (.mtc c.owner) a :: rest } = .next { s with inbox := rest } ∧
      ∃ m : Memory, step { s with inbox := .memWrite (.mtc c.owner) a v :: rest } =
          .next { s with inbox := rest, mem := m } ∧
        m.read a = v ∧ ∀ b, b ≠ a → m.read b = s.mem.read b)

/-- What another MTC's APPLY does to this machine as it begins and as it ends: its territory is there from
the one to the other, of each MTC on its own, and nothing else of the state changes. The events are the
model's own (log entry 14), for R81. -/
def Obligations.TerritoriesBeginAndEnd : Prop :=
  ∀ (s : State) (id base size : Nat) (rest : List Event),
    (∃ l : List Claim, step { s with inbox := .otherRun id base size :: rest } =
        .next { s with inbox := rest, claims := l } ∧
      ∀ c, c ∈ l ↔ c = ⟨id, ⟨base, size⟩⟩ ∨ c ∈ s.claims) ∧
    (∃ l : List Claim, step { s with inbox := .otherEnd id :: rest } =
        .next { s with inbox := rest, claims := l } ∧
      ∀ c, c ∈ l ↔ c ∈ s.claims ∧ c.owner ≠ id) ∧
    ∀ t, step s = .next t → t.claims ≠ s.claims →
      (∃ i b n r, s.inbox = .otherRun i b n :: r) ∨ ∃ i r, s.inbox = .otherEnd i :: r

/-- R73, R76 (log entries 10 and 15): after a STATUS read that shows BUSY = 0 the host reads every byte of
ordinary memory outside other MTCs' territories, the engine's writes among them. -/
def Obligations.StatusReadOpensTheBuffer : Prop :=
  ∀ (s : State) (a : Nat) (rest : List Event), s.phase = .idle → Ordinary s.cfg a → ¬ Foreign s a →
    ∃ t : State, runFor 2 { s with inbox := rd 0x04 :: .memRead .host a :: rest } = .next t ∧
      t.replies = .byte a (s.mem.read a) :: .reg (slotOf 0x04) s.statusWord :: s.replies ∧
      t.inbox = rest

/-- What the model does with an access of another agent that no rule gives an outcome: an address R60 does
not have, and a byte that is not ordinary memory. The model's own (log entry 9). -/
def Obligations.AccessesOutsideMemoryStop : Prop :=
  ∀ (s : State) (agent : Agent) (a : Nat) (v : Byte) (rest : List Event),
    s.inbox = .memRead agent a :: rest ∨ s.inbox = .memWrite agent a v :: rest →
    (2 ^ s.cfg.aw ≤ a → step s = .fault (.noSuchAddress a)) ∧
    (a < 2 ^ s.cfg.aw → ¬ Races agent s a → (∃ r ∈ s.cfg.memMap, Contains r a) →
      step s = .refused (.platformAccess agent a))

/-! ### Reset (70_reset_and_hazards.md) -/

/-- R230: the reset state, from every state. The last four clauses are the model's own: the parameters (log
entries 1 and 2), the other MTCs' territories (log entry 14), the inbox and the replies (log entry 3) are not
the block's, so reset leaves them. -/
def Obligations.ResetClearsTheBlock : Prop :=
  ∀ (s : State) (mapped : List Nat) (rest : List Event), s.inbox = .reset mapped :: rest →
    ∃ t : State, step s = .next t ∧
      t.sel = 0 ∧ t.base = 0 ∧ t.len = 0 ∧ t.sample = 0 ∧ t.result = 0 ∧ t.errGiven = 0 ∧
      t.errMax = 0 ∧ t.statusWord = 0 ∧ t.done = false ∧ t.err = .ok ∧ t.dropped = false ∧
      t.phase = .idle ∧ t.lsel = 0 ∧ t.lbase = 0 ∧ t.endOff = 0 ∧ t.cur = 0 ∧
      t.cfg = s.cfg ∧ t.claims = s.claims ∧ t.inbox = rest ∧ t.replies = s.replies

/-- R231: reset while IDLE leaves buffer memory, and the constants, as they were. -/
def Obligations.ResetWhileIdleKeepsMemory : Prop :=
  ∀ (s : State) (mapped : List Nat) (rest : List Event), s.inbox = .reset mapped :: rest →
    s.phase = .idle →
    ∃ t : State, step s = .next t ∧ (∀ a, t.mem.read a = s.mem.read a) ∧
      hostRead t .curveMax = 3 ∧ ∀ k, hostRead t (.name k) = hostRead s (.name k)

/-- R232: after a reset during RUN no completion is reported; each byte of the processed range holds its
value before the command or that value mapped; every other byte is unchanged; and every combination is
admitted. The value before the command is the one the model's snapshot holds (log entry 4). -/
def Obligations.ResetDuringRun : Prop :=
  ∀ (s : State) (rest : List Event), s.phase = .run →
    (∀ mapped, ∃ t : State, step { s with inbox := .reset mapped :: rest } = .next t ∧
      t.done = false ∧ t.phase = .idle ∧
      (∀ i, i < s.endOff.toNat →
        t.mem.read (s.lbase.toNat + i) = s.snapshot.read (s.lbase.toNat + i) ∨
        t.mem.read (s.lbase.toNat + i) = lut s.lsel (s.snapshot.read (s.lbase.toNat + i))) ∧
      ∀ a, a < s.lbase.toNat ∨ s.lbase.toNat + s.endOff.toNat ≤ a → t.mem.read a = s.mem.read a) ∧
    ∀ choice : Nat → Bool, ∃ mapped t, step { s with inbox := .reset mapped :: rest } = .next t ∧
      ∀ i, i < s.endOff.toNat →
        t.mem.read (s.lbase.toNat + i) =
          if choice i then lut s.lsel (s.snapshot.read (s.lbase.toNat + i))
          else s.snapshot.read (s.lbase.toNat + i)

/-- R234: the first APPLY after reset, nothing written before it, takes the identity fast path. -/
def Obligations.FirstApplyAfterReset : Prop :=
  step (State.reset.withFetchWord 32 0x00000001) =
    .next { State.reset with done := true } ∧ State.reset.statusWord = 0 ∧
  ({ State.reset with done := true } : State).statusWord = 0x00000002

/-! ### The Curve Library (40_curves.md) -/

/-- R119: every LUT entry is the exact value, clamped and rounded half up; curve 0's is the byte itself. -/
def Obligations.LutRoundsTheExactCurve : Prop :=
  ∀ (c : BitVec 2) (b : Byte), lut 0 b = b ∧
    ((lut c b).toNat : ℤ) = round8 (clampOut (evaluate c (b.toNat : ℚ)))

/-- R120: the integer closed forms equal the LUT. -/
def Obligations.ClosedFormsEqualTheLut : Prop :=
  ∀ (c : BitVec 2) (b : Byte), (lut c b).toNat = lutClosed c b.toNat

/-- R111, R112: curves 1 to 3 are the linear interpolation between their control points. -/
def Obligations.CurvesInterpolateTheirControlPoints : Prop :=
  ∀ (c : BitVec 2) (x : ℚ), c ≠ 0 → 0 ≤ x → x ≤ 255 →
    evaluate c x = interpolate (controlPoints c) x

/-- R110, R117: every value is in range, so the output clamp changes nothing, for every input, and to
clamp before or after the rounding is the same (90_conflicts.md C3). -/
def Obligations.CurvesStayInRange : Prop :=
  ∀ (c : BitVec 2) (x : ℚ),
    0 ≤ evaluate c x ∧ evaluate c x ≤ 255 ∧ clampOut (evaluate c x) = evaluate c x ∧
    min 255 (max 0 (round8 (evaluate c x))) = round8 (clampOut (evaluate c x))

/-- R125: each table is non-decreasing over the whole domain and fixes 0 and 255. -/
def Obligations.LutIsMonotone : Prop :=
  ∀ (c : BitVec 2) (a b : Byte),
    (a.toNat ≤ b.toNat → (lut c a).toNat ≤ (lut c b).toNat) ∧ lut c 0 = 0 ∧ lut c 255 = 255

/-- R124: the ties. -/
def Obligations.TiesAreExactlyThese : Prop :=
  ∀ (c : BitVec 2) (b : Byte), c ≠ 0 →
    (Int.fract (evaluate c (b.toNat : ℚ)) = 1 / 2 ↔
      (c = 2 ∨ c = 3) ∧ b.toNat < 120 ∧ b.toNat % 6 = 3)

/-! ### The end of a run (70_reset_and_hazards.md) -/

/-- R242: once a host program has ended it stays so, whatever the other agents still do, and of their steps
only a reset changes what a register reads as. -/
def Obligations.FinalStateStaysFinal : Prop :=
  ∀ s t : State, Final s → step s = .next t →
    Final t ∧ ((∃ mapped rest, s.inbox = .reset mapped :: rest) ∨ ∀ r, hostRead t r = hostRead s r)

/-! ### Headlines -/

/-- Every step keeps the invariant of the block. -/
def Obligations.StepKeepsTheInvariant : Prop :=
  ∀ s t : State, Inv s → step s = .next t → Inv t

/-- The invariant holds at reset. -/
def Obligations.ResetMeetsTheInvariant : Prop := Inv State.reset

/-- R37, R43: no run shows what LSEL, LBASE, END and CUR held while IDLE (nor the model's snapshot). -/
def Obligations.IdleEngineRegistersAreUnobservable : Prop :=
  ∀ (s t : State) (k : Nat), forgetIdle s = forgetIdle t →
    Indistinct (runFor k s) (runFor k t)

/-- Where all memory is ordinary and no other MTC runs, a step whose waiting events are benign goes on, and
keeps all of this: no rule lets it stop. The map and the platform's answers are log entry 2, the territories
log entry 14. -/
def Obligations.BenignStepGoesOn : Prop :=
  ∀ s : State, Inv s → s.cfg.memMap = [] → s.claims = [] → (∀ e ∈ s.inbox, e.benign = true) →
    ∃ t : State, step s = .next t ∧
      Inv t ∧ t.cfg.memMap = [] ∧ t.claims = [] ∧ ∀ e ∈ t.inbox, e.benign = true

/-- 93_implementation_defined.md: no behaviour of the block halts it. On a platform whose whole memory is
ordinary (log entry 2), with no other MTC running (log entry 14), no host port access of 32 bits, engine step
the platform admits or reset, in any order and number, ends a run. -/
def Obligations.TheBlockNeverHalts : Prop :=
  ∀ s : State, Inv s → s.cfg.memMap = [] → s.claims = [] → (∀ e ∈ s.inbox, e.benign = true) → Safe s
end

