-- ==== Sys2Proof/Laws/Memory.lean ====
section
/-! SUPPORT. Buffer memory: a read after a write, the other bytes, and the canonical form, which every
operation keeps. -/

namespace Sys2Proof.Machine

namespace Memory

@[simp] theorem read_nil (a : Nat) : Memory.read [] a = unlisted := rfl

theorem read_cons (k : Nat) (x : Byte) (m : Memory) (a : Nat) :
    Memory.read ((k, x) :: m) a = if k = a then x else Memory.read m a := rfl

theorem read_unlisted_of_no_key {m : Memory} {a : Nat} (h : ∀ c ∈ m, c.1 ≠ a) :
    m.read a = unlisted := by
  induction m with
  | nil => rfl
  | cons c m ih =>
    obtain ⟨k, x⟩ := c
    rw [read_cons, if_neg (h (k, x) (by simp))]
    exact ih fun d hd => h d (by simp [hd])

theorem erase_no_key (m : Memory) (a : Nat) : ∀ c ∈ m.erase a, c.1 ≠ a := by
  simp [erase]

theorem mem_of_mem_erase {m : Memory} {a : Nat} {c : Host.Cell} (h : c ∈ m.erase a) : c ∈ m :=
  List.mem_of_mem_filter h

theorem read_erase_other (m : Memory) {a b : Nat} (h : b ≠ a) : (m.erase a).read b = m.read b := by
  induction m with
  | nil => rfl
  | cons c m ih =>
    obtain ⟨k, x⟩ := c
    by_cases hk : k = a
    · subst hk
      rw [read_cons, if_neg (Ne.symm h), ← ih]
      simp [erase]
    · have : erase ((k, x) :: m) a = (k, x) :: erase m a := by simp [erase, hk]
      rw [this, read_cons, read_cons, ih]

theorem read_insert_same {m : Memory} {a : Nat} (v : Byte) (h : ∀ c ∈ m, c.1 ≠ a) :
    (m.insert a v).read a = v := by
  induction m with
  | nil => simp [insert, read]
  | cons c m ih =>
    obtain ⟨k, x⟩ := c
    unfold insert
    split
    · simp [read_cons]
    · rw [read_cons, if_neg (h (k, x) (by simp))]
      exact ih fun d hd => h d (by simp [hd])

theorem read_insert_other (m : Memory) {a b : Nat} (v : Byte) (h : b ≠ a) :
    (m.insert a v).read b = m.read b := by
  induction m with
  | nil => simp [insert, read, Ne.symm h]
  | cons c m ih =>
    obtain ⟨k, x⟩ := c
    unfold insert
    split
    · rw [read_cons, if_neg (Ne.symm h)]
    · rw [read_cons, read_cons, ih]

theorem mem_insert {m : Memory} {a : Nat} {v : Byte} {c : Host.Cell} :
    c ∈ m.insert a v ↔ c = (a, v) ∨ c ∈ m := by
  induction m with
  | nil => simp [insert]
  | cons d m ih =>
    obtain ⟨k, x⟩ := d
    unfold insert
    split
    · simp
    · simp only [List.mem_cons, ih]
      tauto

/-- A read after a write to the same byte gives the value written. -/
@[simp] theorem read_write_same (m : Memory) (a : Nat) (v : Byte) : (m.write a v).read a = v := by
  unfold write
  split
  · next h => rw [read_unlisted_of_no_key (erase_no_key m a), h]
  · exact read_insert_same v (erase_no_key m a)

/-- A write leaves every other byte as it was. -/
theorem read_write_other (m : Memory) {a b : Nat} (v : Byte) (h : b ≠ a) :
    (m.write a v).read b = m.read b := by
  unfold write
  split
  · exact read_erase_other m h
  · rw [read_insert_other _ v h, read_erase_other m h]

theorem read_write (m : Memory) (a b : Nat) (v : Byte) :
    (m.write a v).read b = if b = a then v else m.read b := by
  split
  · next h => rw [h, read_write_same]
  · next h => exact read_write_other m v h

theorem mem_of_mem_write {m : Memory} {a : Nat} {v : Byte} {c : Host.Cell} (h : c ∈ m.write a v) :
    c.1 = a ∨ c ∈ m := by
  unfold write at h
  split at h
  · exact .inr (mem_of_mem_erase h)
  · rcases mem_insert.1 h with rfl | h
    · exact .inl rfl
    · exact .inr (mem_of_mem_erase h)

theorem wf_nil : wf [] := by simp [wf]

theorem wf_erase {m : Memory} (a : Nat) (h : wf m) : wf (m.erase a) :=
  ⟨h.1.sublist List.filter_sublist, fun c hc => h.2 c (mem_of_mem_erase hc)⟩

theorem wf_insert {m : Memory} {a : Nat} {v : Byte} (h : wf m) (hk : ∀ c ∈ m, c.1 ≠ a)
    (hv : v ≠ unlisted) : wf (m.insert a v) := by
  refine ⟨?_, fun c hc => ?_⟩
  · have hs := h.1
    clear h
    induction m with
    | nil => simp [insert]
    | cons d m ih =>
      obtain ⟨k, x⟩ := d
      have hs' := List.pairwise_cons.1 hs
      unfold insert
      split
      · next hlt =>
        refine List.pairwise_cons.2 ⟨fun c hc => ?_, hs⟩
        rcases List.mem_cons.1 hc with rfl | hc
        · exact hlt
        · exact Nat.lt_trans hlt (hs'.1 c hc)
      · next hge =>
        refine List.pairwise_cons.2 ⟨fun c hc => ?_, ih (fun c hc => hk c (by simp [hc])) hs'.2⟩
        rcases mem_insert.1 hc with rfl | hc
        · have := hk (k, x) (by simp)
          simp only at this ⊢
          omega
        · exact hs'.1 c hc
  · rcases mem_insert.1 hc with rfl | hc
    · exact hv
    · exact h.2 c hc

/-- A write keeps the canonical form. -/
theorem wf_write {m : Memory} (a : Nat) (v : Byte) (h : wf m) : wf (m.write a v) := by
  unfold write
  split
  · exact wf_erase a h
  · next hv => exact wf_insert (wf_erase a h) (erase_no_key m a) hv

end Memory

/-- Reset during RUN, read one byte at a time: the choice of R232 inside the range, the memory outside. -/
theorem read_resetBytes (mapped : List Nat) (s : State) (n a : Nat) :
    (resetBytes mapped s n).read a =
      if s.lbase.toNat ≤ a ∧ a < s.lbase.toNat + n then resetByte mapped s (a - s.lbase.toNat)
      else s.mem.read a := by
  induction n with
  | zero => rw [if_neg (by omega)]; rfl
  | succ n ih =>
    unfold resetBytes
    rw [Memory.read_write, ih]
    by_cases h : a = s.lbase.toNat + n
    · rw [if_pos h, if_pos (by omega), h, Nat.add_sub_cancel_left]
    · rw [if_neg h]
      by_cases h' : s.lbase.toNat ≤ a ∧ a < s.lbase.toNat + n
      · rw [if_pos h', if_pos (by omega)]
      · rw [if_neg h', if_neg (by omega)]

theorem wf_resetBytes (mapped : List Nat) {s : State} (h : Memory.wf s.mem) (n : Nat) :
    Memory.wf (resetBytes mapped s n) := by
  induction n with
  | zero => exact h
  | succ n ih => exact Memory.wf_write _ _ ih

theorem mem_resetBytes {mapped : List Nat} {s : State} {n : Nat} {c : Host.Cell}
    (h : c ∈ resetBytes mapped s n) : c.1 < s.lbase.toNat + n ∨ c ∈ s.mem := by
  induction n with
  | zero => exact .inr h
  | succ n ih =>
    rcases Memory.mem_of_mem_write h with h | h
    · left; omega
    · rcases ih h with h | h
      · left; omega
      · exact .inr h

/-- Reset keeps the canonical form. -/
theorem wf_resetMemory (mapped : List Nat) {s : State} (h : Memory.wf s.mem) :
    Memory.wf (resetMemory mapped s) := by
  unfold resetMemory
  split
  · exact h
  · exact wf_resetBytes mapped h _

end Sys2Proof.Machine
end

