-- ==== Sys2Proof/Laws/State.lean ====
section
/-! SUPPORT. Every field of the state after every named update, so that no proof unfolds a record update. -/

namespace Sys2Proof.Machine.State

variable (s : State)


@[simp] theorem report_cfg (e : ErrKind) (given max : Word) : (s.report e given max).cfg = s.cfg := rfl
@[simp] theorem report_sel (e : ErrKind) (given max : Word) : (s.report e given max).sel = s.sel := rfl
@[simp] theorem report_base (e : ErrKind) (given max : Word) : (s.report e given max).base = s.base := rfl
@[simp] theorem report_len (e : ErrKind) (given max : Word) : (s.report e given max).len = s.len := rfl
@[simp] theorem report_sample (e : ErrKind) (given max : Word) : (s.report e given max).sample = s.sample := rfl
@[simp] theorem report_result (e : ErrKind) (given max : Word) : (s.report e given max).result = s.result := rfl
@[simp] theorem report_errGiven (e : ErrKind) (given max : Word) : (s.report e given max).errGiven = given := rfl
@[simp] theorem report_errMax (e : ErrKind) (given max : Word) : (s.report e given max).errMax = max := rfl
@[simp] theorem report_done (e : ErrKind) (given max : Word) : (s.report e given max).done = true := rfl
@[simp] theorem report_err (e : ErrKind) (given max : Word) : (s.report e given max).err = e := rfl
@[simp] theorem report_dropped (e : ErrKind) (given max : Word) : (s.report e given max).dropped = s.dropped := rfl
@[simp] theorem report_phase (e : ErrKind) (given max : Word) : (s.report e given max).phase = s.phase := rfl
@[simp] theorem report_lsel (e : ErrKind) (given max : Word) : (s.report e given max).lsel = s.lsel := rfl
@[simp] theorem report_lbase (e : ErrKind) (given max : Word) : (s.report e given max).lbase = s.lbase := rfl
@[simp] theorem report_endOff (e : ErrKind) (given max : Word) : (s.report e given max).endOff = s.endOff := rfl
@[simp] theorem report_cur (e : ErrKind) (given max : Word) : (s.report e given max).cur = s.cur := rfl
@[simp] theorem report_mem (e : ErrKind) (given max : Word) : (s.report e given max).mem = s.mem := rfl
@[simp] theorem report_snapshot (e : ErrKind) (given max : Word) : (s.report e given max).snapshot = s.snapshot := rfl
@[simp] theorem report_unacquired (e : ErrKind) (given max : Word) : (s.report e given max).unacquired = s.unacquired := rfl
@[simp] theorem report_claims (e : ErrKind) (given max : Word) : (s.report e given max).claims = s.claims := rfl
@[simp] theorem report_inbox (e : ErrKind) (given max : Word) : (s.report e given max).inbox = s.inbox := rfl
@[simp] theorem report_replies (e : ErrKind) (given max : Word) : (s.report e given max).replies = s.replies := rfl

@[simp] theorem completeOk_cfg : (s.completeOk).cfg = s.cfg := rfl
@[simp] theorem completeOk_sel : (s.completeOk).sel = s.sel := rfl
@[simp] theorem completeOk_base : (s.completeOk).base = s.base := rfl
@[simp] theorem completeOk_len : (s.completeOk).len = s.len := rfl
@[simp] theorem completeOk_sample : (s.completeOk).sample = s.sample := rfl
@[simp] theorem completeOk_result : (s.completeOk).result = s.result := rfl
@[simp] theorem completeOk_errGiven : (s.completeOk).errGiven = 0 := rfl
@[simp] theorem completeOk_errMax : (s.completeOk).errMax = 0 := rfl
@[simp] theorem completeOk_done : (s.completeOk).done = true := rfl
@[simp] theorem completeOk_err : (s.completeOk).err = .ok := rfl
@[simp] theorem completeOk_dropped : (s.completeOk).dropped = s.dropped := rfl
@[simp] theorem completeOk_phase : (s.completeOk).phase = s.phase := rfl
@[simp] theorem completeOk_lsel : (s.completeOk).lsel = s.lsel := rfl
@[simp] theorem completeOk_lbase : (s.completeOk).lbase = s.lbase := rfl
@[simp] theorem completeOk_endOff : (s.completeOk).endOff = s.endOff := rfl
@[simp] theorem completeOk_cur : (s.completeOk).cur = s.cur := rfl
@[simp] theorem completeOk_mem : (s.completeOk).mem = s.mem := rfl
@[simp] theorem completeOk_snapshot : (s.completeOk).snapshot = s.snapshot := rfl
@[simp] theorem completeOk_unacquired : (s.completeOk).unacquired = s.unacquired := rfl
@[simp] theorem completeOk_claims : (s.completeOk).claims = s.claims := rfl
@[simp] theorem completeOk_inbox : (s.completeOk).inbox = s.inbox := rfl
@[simp] theorem completeOk_replies : (s.completeOk).replies = s.replies := rfl

@[simp] theorem drop_cfg : (s.drop).cfg = s.cfg := rfl
@[simp] theorem drop_sel : (s.drop).sel = s.sel := rfl
@[simp] theorem drop_base : (s.drop).base = s.base := rfl
@[simp] theorem drop_len : (s.drop).len = s.len := rfl
@[simp] theorem drop_sample : (s.drop).sample = s.sample := rfl
@[simp] theorem drop_result : (s.drop).result = s.result := rfl
@[simp] theorem drop_errGiven : (s.drop).errGiven = s.errGiven := rfl
@[simp] theorem drop_errMax : (s.drop).errMax = s.errMax := rfl
@[simp] theorem drop_done : (s.drop).done = s.done := rfl
@[simp] theorem drop_err : (s.drop).err = s.err := rfl
@[simp] theorem drop_dropped : (s.drop).dropped = true := rfl
@[simp] theorem drop_phase : (s.drop).phase = s.phase := rfl
@[simp] theorem drop_lsel : (s.drop).lsel = s.lsel := rfl
@[simp] theorem drop_lbase : (s.drop).lbase = s.lbase := rfl
@[simp] theorem drop_endOff : (s.drop).endOff = s.endOff := rfl
@[simp] theorem drop_cur : (s.drop).cur = s.cur := rfl
@[simp] theorem drop_mem : (s.drop).mem = s.mem := rfl
@[simp] theorem drop_snapshot : (s.drop).snapshot = s.snapshot := rfl
@[simp] theorem drop_unacquired : (s.drop).unacquired = s.unacquired := rfl
@[simp] theorem drop_claims : (s.drop).claims = s.claims := rfl
@[simp] theorem drop_inbox : (s.drop).inbox = s.inbox := rfl
@[simp] theorem drop_replies : (s.drop).replies = s.replies := rfl

@[simp] theorem reply_cfg (r : Reply) : (s.reply r).cfg = s.cfg := rfl
@[simp] theorem reply_sel (r : Reply) : (s.reply r).sel = s.sel := rfl
@[simp] theorem reply_base (r : Reply) : (s.reply r).base = s.base := rfl
@[simp] theorem reply_len (r : Reply) : (s.reply r).len = s.len := rfl
@[simp] theorem reply_sample (r : Reply) : (s.reply r).sample = s.sample := rfl
@[simp] theorem reply_result (r : Reply) : (s.reply r).result = s.result := rfl
@[simp] theorem reply_errGiven (r : Reply) : (s.reply r).errGiven = s.errGiven := rfl
@[simp] theorem reply_errMax (r : Reply) : (s.reply r).errMax = s.errMax := rfl
@[simp] theorem reply_done (r : Reply) : (s.reply r).done = s.done := rfl
@[simp] theorem reply_err (r : Reply) : (s.reply r).err = s.err := rfl
@[simp] theorem reply_dropped (r : Reply) : (s.reply r).dropped = s.dropped := rfl
@[simp] theorem reply_phase (r : Reply) : (s.reply r).phase = s.phase := rfl
@[simp] theorem reply_lsel (r : Reply) : (s.reply r).lsel = s.lsel := rfl
@[simp] theorem reply_lbase (r : Reply) : (s.reply r).lbase = s.lbase := rfl
@[simp] theorem reply_endOff (r : Reply) : (s.reply r).endOff = s.endOff := rfl
@[simp] theorem reply_cur (r : Reply) : (s.reply r).cur = s.cur := rfl
@[simp] theorem reply_mem (r : Reply) : (s.reply r).mem = s.mem := rfl
@[simp] theorem reply_snapshot (r : Reply) : (s.reply r).snapshot = s.snapshot := rfl
@[simp] theorem reply_unacquired (r : Reply) : (s.reply r).unacquired = s.unacquired := rfl
@[simp] theorem reply_claims (r : Reply) : (s.reply r).claims = s.claims := rfl
@[simp] theorem reply_inbox (r : Reply) : (s.reply r).inbox = s.inbox := rfl
@[simp] theorem reply_replies (r : Reply) : (s.reply r).replies = r :: s.replies := rfl

@[simp] theorem clearDone_cfg : (s.clearDone).cfg = s.cfg := rfl
@[simp] theorem clearDone_sel : (s.clearDone).sel = s.sel := rfl
@[simp] theorem clearDone_base : (s.clearDone).base = s.base := rfl
@[simp] theorem clearDone_len : (s.clearDone).len = s.len := rfl
@[simp] theorem clearDone_sample : (s.clearDone).sample = s.sample := rfl
@[simp] theorem clearDone_result : (s.clearDone).result = s.result := rfl
@[simp] theorem clearDone_errGiven : (s.clearDone).errGiven = s.errGiven := rfl
@[simp] theorem clearDone_errMax : (s.clearDone).errMax = s.errMax := rfl
@[simp] theorem clearDone_done : (s.clearDone).done = false := rfl
@[simp] theorem clearDone_err : (s.clearDone).err = s.err := rfl
@[simp] theorem clearDone_dropped : (s.clearDone).dropped = s.dropped := rfl
@[simp] theorem clearDone_phase : (s.clearDone).phase = s.phase := rfl
@[simp] theorem clearDone_lsel : (s.clearDone).lsel = s.lsel := rfl
@[simp] theorem clearDone_lbase : (s.clearDone).lbase = s.lbase := rfl
@[simp] theorem clearDone_endOff : (s.clearDone).endOff = s.endOff := rfl
@[simp] theorem clearDone_cur : (s.clearDone).cur = s.cur := rfl
@[simp] theorem clearDone_mem : (s.clearDone).mem = s.mem := rfl
@[simp] theorem clearDone_snapshot : (s.clearDone).snapshot = s.snapshot := rfl
@[simp] theorem clearDone_unacquired : (s.clearDone).unacquired = s.unacquired := rfl
@[simp] theorem clearDone_claims : (s.clearDone).claims = s.claims := rfl
@[simp] theorem clearDone_inbox : (s.clearDone).inbox = s.inbox := rfl
@[simp] theorem clearDone_replies : (s.clearDone).replies = s.replies := rfl

@[simp] theorem beginRun_cfg : (s.beginRun).cfg = s.cfg := rfl
@[simp] theorem beginRun_sel : (s.beginRun).sel = s.sel := rfl
@[simp] theorem beginRun_base : (s.beginRun).base = s.base := rfl
@[simp] theorem beginRun_len : (s.beginRun).len = s.len := rfl
@[simp] theorem beginRun_sample : (s.beginRun).sample = s.sample := rfl
@[simp] theorem beginRun_result : (s.beginRun).result = s.result := rfl
@[simp] theorem beginRun_errGiven : (s.beginRun).errGiven = s.errGiven := rfl
@[simp] theorem beginRun_errMax : (s.beginRun).errMax = s.errMax := rfl
@[simp] theorem beginRun_done : (s.beginRun).done = s.done := rfl
@[simp] theorem beginRun_err : (s.beginRun).err = s.err := rfl
@[simp] theorem beginRun_dropped : (s.beginRun).dropped = s.dropped := rfl
@[simp] theorem beginRun_phase : (s.beginRun).phase = .run := rfl
@[simp] theorem beginRun_lsel : (s.beginRun).lsel = curveOf s.sel := rfl
@[simp] theorem beginRun_lbase : (s.beginRun).lbase = s.base := rfl
@[simp] theorem beginRun_endOff : (s.beginRun).endOff = wholeGroups s.len := rfl
@[simp] theorem beginRun_cur : (s.beginRun).cur = 0 := rfl
@[simp] theorem beginRun_mem : (s.beginRun).mem = s.mem := rfl
@[simp] theorem beginRun_snapshot : (s.beginRun).snapshot = s.mem := rfl
@[simp] theorem beginRun_unacquired : (s.beginRun).unacquired = s.unacquired := rfl
@[simp] theorem beginRun_claims : (s.beginRun).claims = s.claims := rfl
@[simp] theorem beginRun_inbox : (s.beginRun).inbox = s.inbox := rfl
@[simp] theorem beginRun_replies : (s.beginRun).replies = s.replies := rfl

@[simp] theorem endRun_cfg : (s.endRun).cfg = s.cfg := rfl
@[simp] theorem endRun_sel : (s.endRun).sel = s.sel := rfl
@[simp] theorem endRun_base : (s.endRun).base = s.base := rfl
@[simp] theorem endRun_len : (s.endRun).len = s.len := rfl
@[simp] theorem endRun_sample : (s.endRun).sample = s.sample := rfl
@[simp] theorem endRun_result : (s.endRun).result = s.result := rfl
@[simp] theorem endRun_errGiven : (s.endRun).errGiven = s.errGiven := rfl
@[simp] theorem endRun_errMax : (s.endRun).errMax = s.errMax := rfl
@[simp] theorem endRun_done : (s.endRun).done = s.done := rfl
@[simp] theorem endRun_err : (s.endRun).err = s.err := rfl
@[simp] theorem endRun_dropped : (s.endRun).dropped = s.dropped := rfl
@[simp] theorem endRun_phase : (s.endRun).phase = .idle := rfl
@[simp] theorem endRun_lsel : (s.endRun).lsel = s.lsel := rfl
@[simp] theorem endRun_lbase : (s.endRun).lbase = s.lbase := rfl
@[simp] theorem endRun_endOff : (s.endRun).endOff = s.endOff := rfl
@[simp] theorem endRun_cur : (s.endRun).cur = s.cur := rfl
@[simp] theorem endRun_mem : (s.endRun).mem = s.mem := rfl
@[simp] theorem endRun_snapshot : (s.endRun).snapshot = s.snapshot := rfl
@[simp] theorem endRun_unacquired : (s.endRun).unacquired = s.runSpan :: s.unacquired := rfl
@[simp] theorem endRun_claims : (s.endRun).claims = s.claims := rfl
@[simp] theorem endRun_inbox : (s.endRun).inbox = s.inbox := rfl
@[simp] theorem endRun_replies : (s.endRun).replies = s.replies := rfl

@[simp] theorem writeStatus_cfg (w : Word) : (s.writeStatus w).cfg = s.cfg := by unfold writeStatus; split <;> rfl
@[simp] theorem writeStatus_sel (w : Word) : (s.writeStatus w).sel = s.sel := by unfold writeStatus; split <;> rfl
@[simp] theorem writeStatus_base (w : Word) : (s.writeStatus w).base = s.base := by unfold writeStatus; split <;> rfl
@[simp] theorem writeStatus_len (w : Word) : (s.writeStatus w).len = s.len := by unfold writeStatus; split <;> rfl
@[simp] theorem writeStatus_sample (w : Word) : (s.writeStatus w).sample = s.sample := by unfold writeStatus; split <;> rfl
@[simp] theorem writeStatus_result (w : Word) : (s.writeStatus w).result = s.result := by unfold writeStatus; split <;> rfl
@[simp] theorem writeStatus_errGiven (w : Word) : (s.writeStatus w).errGiven = s.errGiven := by unfold writeStatus; split <;> rfl
@[simp] theorem writeStatus_errMax (w : Word) : (s.writeStatus w).errMax = s.errMax := by unfold writeStatus; split <;> rfl
@[simp] theorem writeStatus_done (w : Word) : (s.writeStatus w).done = s.done := by unfold writeStatus; split <;> rfl
@[simp] theorem writeStatus_err (w : Word) : (s.writeStatus w).err = s.err := by unfold writeStatus; split <;> rfl
@[simp] theorem writeStatus_dropped (w : Word) : (s.writeStatus w).dropped = (s.dropped && !w.getLsbD 8) := by
  unfold writeStatus; split <;> simp_all
@[simp] theorem writeStatus_phase (w : Word) : (s.writeStatus w).phase = s.phase := by unfold writeStatus; split <;> rfl
@[simp] theorem writeStatus_lsel (w : Word) : (s.writeStatus w).lsel = s.lsel := by unfold writeStatus; split <;> rfl
@[simp] theorem writeStatus_lbase (w : Word) : (s.writeStatus w).lbase = s.lbase := by unfold writeStatus; split <;> rfl
@[simp] theorem writeStatus_endOff (w : Word) : (s.writeStatus w).endOff = s.endOff := by unfold writeStatus; split <;> rfl
@[simp] theorem writeStatus_cur (w : Word) : (s.writeStatus w).cur = s.cur := by unfold writeStatus; split <;> rfl
@[simp] theorem writeStatus_mem (w : Word) : (s.writeStatus w).mem = s.mem := by unfold writeStatus; split <;> rfl
@[simp] theorem writeStatus_snapshot (w : Word) : (s.writeStatus w).snapshot = s.snapshot := by unfold writeStatus; split <;> rfl
@[simp] theorem writeStatus_unacquired (w : Word) : (s.writeStatus w).unacquired = s.unacquired := by unfold writeStatus; split <;> rfl
@[simp] theorem writeStatus_claims (w : Word) : (s.writeStatus w).claims = s.claims := by unfold writeStatus; split <;> rfl
@[simp] theorem writeStatus_inbox (w : Word) : (s.writeStatus w).inbox = s.inbox := by unfold writeStatus; split <;> rfl
@[simp] theorem writeStatus_replies (w : Word) : (s.writeStatus w).replies = s.replies := by unfold writeStatus; split <;> rfl

@[simp] theorem acquireOn_cfg (r : Reg) : (s.acquireOn r).cfg = s.cfg := by unfold acquireOn; split <;> rfl
@[simp] theorem acquireOn_sel (r : Reg) : (s.acquireOn r).sel = s.sel := by unfold acquireOn; split <;> rfl
@[simp] theorem acquireOn_base (r : Reg) : (s.acquireOn r).base = s.base := by unfold acquireOn; split <;> rfl
@[simp] theorem acquireOn_len (r : Reg) : (s.acquireOn r).len = s.len := by unfold acquireOn; split <;> rfl
@[simp] theorem acquireOn_sample (r : Reg) : (s.acquireOn r).sample = s.sample := by unfold acquireOn; split <;> rfl
@[simp] theorem acquireOn_result (r : Reg) : (s.acquireOn r).result = s.result := by unfold acquireOn; split <;> rfl
@[simp] theorem acquireOn_errGiven (r : Reg) : (s.acquireOn r).errGiven = s.errGiven := by unfold acquireOn; split <;> rfl
@[simp] theorem acquireOn_errMax (r : Reg) : (s.acquireOn r).errMax = s.errMax := by unfold acquireOn; split <;> rfl
@[simp] theorem acquireOn_done (r : Reg) : (s.acquireOn r).done = s.done := by unfold acquireOn; split <;> rfl
@[simp] theorem acquireOn_err (r : Reg) : (s.acquireOn r).err = s.err := by unfold acquireOn; split <;> rfl
@[simp] theorem acquireOn_dropped (r : Reg) : (s.acquireOn r).dropped = s.dropped := by unfold acquireOn; split <;> rfl
@[simp] theorem acquireOn_phase (r : Reg) : (s.acquireOn r).phase = s.phase := by unfold acquireOn; split <;> rfl
@[simp] theorem acquireOn_lsel (r : Reg) : (s.acquireOn r).lsel = s.lsel := by unfold acquireOn; split <;> rfl
@[simp] theorem acquireOn_lbase (r : Reg) : (s.acquireOn r).lbase = s.lbase := by unfold acquireOn; split <;> rfl
@[simp] theorem acquireOn_endOff (r : Reg) : (s.acquireOn r).endOff = s.endOff := by unfold acquireOn; split <;> rfl
@[simp] theorem acquireOn_cur (r : Reg) : (s.acquireOn r).cur = s.cur := by unfold acquireOn; split <;> rfl
@[simp] theorem acquireOn_mem (r : Reg) : (s.acquireOn r).mem = s.mem := by unfold acquireOn; split <;> rfl
@[simp] theorem acquireOn_snapshot (r : Reg) : (s.acquireOn r).snapshot = s.snapshot := by unfold acquireOn; split <;> rfl
@[simp] theorem acquireOn_unacquired (r : Reg) : (s.acquireOn r).unacquired = if r = .status ∧ s.phase = .idle then [] else s.unacquired := by
  unfold acquireOn; split <;> simp_all
@[simp] theorem acquireOn_claims (r : Reg) : (s.acquireOn r).claims = s.claims := by unfold acquireOn; split <;> rfl
@[simp] theorem acquireOn_inbox (r : Reg) : (s.acquireOn r).inbox = s.inbox := by unfold acquireOn; split <;> rfl
@[simp] theorem acquireOn_replies (r : Reg) : (s.acquireOn r).replies = s.replies := by unfold acquireOn; split <;> rfl

@[simp] theorem otherRun_cfg (id base size : Nat) : (s.otherRun id base size).cfg = s.cfg := rfl
@[simp] theorem otherRun_sel (id base size : Nat) : (s.otherRun id base size).sel = s.sel := rfl
@[simp] theorem otherRun_base (id base size : Nat) : (s.otherRun id base size).base = s.base := rfl
@[simp] theorem otherRun_len (id base size : Nat) : (s.otherRun id base size).len = s.len := rfl
@[simp] theorem otherRun_sample (id base size : Nat) : (s.otherRun id base size).sample = s.sample := rfl
@[simp] theorem otherRun_result (id base size : Nat) : (s.otherRun id base size).result = s.result := rfl
@[simp] theorem otherRun_errGiven (id base size : Nat) : (s.otherRun id base size).errGiven = s.errGiven := rfl
@[simp] theorem otherRun_errMax (id base size : Nat) : (s.otherRun id base size).errMax = s.errMax := rfl
@[simp] theorem otherRun_done (id base size : Nat) : (s.otherRun id base size).done = s.done := rfl
@[simp] theorem otherRun_err (id base size : Nat) : (s.otherRun id base size).err = s.err := rfl
@[simp] theorem otherRun_dropped (id base size : Nat) : (s.otherRun id base size).dropped = s.dropped := rfl
@[simp] theorem otherRun_phase (id base size : Nat) : (s.otherRun id base size).phase = s.phase := rfl
@[simp] theorem otherRun_lsel (id base size : Nat) : (s.otherRun id base size).lsel = s.lsel := rfl
@[simp] theorem otherRun_lbase (id base size : Nat) : (s.otherRun id base size).lbase = s.lbase := rfl
@[simp] theorem otherRun_endOff (id base size : Nat) : (s.otherRun id base size).endOff = s.endOff := rfl
@[simp] theorem otherRun_cur (id base size : Nat) : (s.otherRun id base size).cur = s.cur := rfl
@[simp] theorem otherRun_mem (id base size : Nat) : (s.otherRun id base size).mem = s.mem := rfl
@[simp] theorem otherRun_snapshot (id base size : Nat) : (s.otherRun id base size).snapshot = s.snapshot := rfl
@[simp] theorem otherRun_unacquired (id base size : Nat) : (s.otherRun id base size).unacquired = s.unacquired := rfl
@[simp] theorem otherRun_claims (id base size : Nat) : (s.otherRun id base size).claims = ⟨id, ⟨base, size⟩⟩ :: s.claims := rfl
@[simp] theorem otherRun_inbox (id base size : Nat) : (s.otherRun id base size).inbox = s.inbox := rfl
@[simp] theorem otherRun_replies (id base size : Nat) : (s.otherRun id base size).replies = s.replies := rfl

@[simp] theorem otherEnd_cfg (id : Nat) : (s.otherEnd id).cfg = s.cfg := rfl
@[simp] theorem otherEnd_sel (id : Nat) : (s.otherEnd id).sel = s.sel := rfl
@[simp] theorem otherEnd_base (id : Nat) : (s.otherEnd id).base = s.base := rfl
@[simp] theorem otherEnd_len (id : Nat) : (s.otherEnd id).len = s.len := rfl
@[simp] theorem otherEnd_sample (id : Nat) : (s.otherEnd id).sample = s.sample := rfl
@[simp] theorem otherEnd_result (id : Nat) : (s.otherEnd id).result = s.result := rfl
@[simp] theorem otherEnd_errGiven (id : Nat) : (s.otherEnd id).errGiven = s.errGiven := rfl
@[simp] theorem otherEnd_errMax (id : Nat) : (s.otherEnd id).errMax = s.errMax := rfl
@[simp] theorem otherEnd_done (id : Nat) : (s.otherEnd id).done = s.done := rfl
@[simp] theorem otherEnd_err (id : Nat) : (s.otherEnd id).err = s.err := rfl
@[simp] theorem otherEnd_dropped (id : Nat) : (s.otherEnd id).dropped = s.dropped := rfl
@[simp] theorem otherEnd_phase (id : Nat) : (s.otherEnd id).phase = s.phase := rfl
@[simp] theorem otherEnd_lsel (id : Nat) : (s.otherEnd id).lsel = s.lsel := rfl
@[simp] theorem otherEnd_lbase (id : Nat) : (s.otherEnd id).lbase = s.lbase := rfl
@[simp] theorem otherEnd_endOff (id : Nat) : (s.otherEnd id).endOff = s.endOff := rfl
@[simp] theorem otherEnd_cur (id : Nat) : (s.otherEnd id).cur = s.cur := rfl
@[simp] theorem otherEnd_mem (id : Nat) : (s.otherEnd id).mem = s.mem := rfl
@[simp] theorem otherEnd_snapshot (id : Nat) : (s.otherEnd id).snapshot = s.snapshot := rfl
@[simp] theorem otherEnd_unacquired (id : Nat) : (s.otherEnd id).unacquired = s.unacquired := rfl
@[simp] theorem otherEnd_claims (id : Nat) : (s.otherEnd id).claims = s.claims.filter fun c => decide (c.owner ≠ id) := rfl
@[simp] theorem otherEnd_inbox (id : Nat) : (s.otherEnd id).inbox = s.inbox := rfl
@[simp] theorem otherEnd_replies (id : Nat) : (s.otherEnd id).replies = s.replies := rfl

@[simp] theorem withFetchWord_cfg (nbits w : Nat) : (s.withFetchWord nbits w).cfg = s.cfg := rfl
@[simp] theorem withFetchWord_sel (nbits w : Nat) : (s.withFetchWord nbits w).sel = s.sel := rfl
@[simp] theorem withFetchWord_base (nbits w : Nat) : (s.withFetchWord nbits w).base = s.base := rfl
@[simp] theorem withFetchWord_len (nbits w : Nat) : (s.withFetchWord nbits w).len = s.len := rfl
@[simp] theorem withFetchWord_sample (nbits w : Nat) : (s.withFetchWord nbits w).sample = s.sample := rfl
@[simp] theorem withFetchWord_result (nbits w : Nat) : (s.withFetchWord nbits w).result = s.result := rfl
@[simp] theorem withFetchWord_errGiven (nbits w : Nat) : (s.withFetchWord nbits w).errGiven = s.errGiven := rfl
@[simp] theorem withFetchWord_errMax (nbits w : Nat) : (s.withFetchWord nbits w).errMax = s.errMax := rfl
@[simp] theorem withFetchWord_done (nbits w : Nat) : (s.withFetchWord nbits w).done = s.done := rfl
@[simp] theorem withFetchWord_err (nbits w : Nat) : (s.withFetchWord nbits w).err = s.err := rfl
@[simp] theorem withFetchWord_dropped (nbits w : Nat) : (s.withFetchWord nbits w).dropped = s.dropped := rfl
@[simp] theorem withFetchWord_phase (nbits w : Nat) : (s.withFetchWord nbits w).phase = .idle := rfl
@[simp] theorem withFetchWord_lsel (nbits w : Nat) : (s.withFetchWord nbits w).lsel = s.lsel := rfl
@[simp] theorem withFetchWord_lbase (nbits w : Nat) : (s.withFetchWord nbits w).lbase = s.lbase := rfl
@[simp] theorem withFetchWord_endOff (nbits w : Nat) : (s.withFetchWord nbits w).endOff = s.endOff := rfl
@[simp] theorem withFetchWord_cur (nbits w : Nat) : (s.withFetchWord nbits w).cur = s.cur := rfl
@[simp] theorem withFetchWord_mem (nbits w : Nat) : (s.withFetchWord nbits w).mem = s.mem := rfl
@[simp] theorem withFetchWord_snapshot (nbits w : Nat) : (s.withFetchWord nbits w).snapshot = s.snapshot := rfl
@[simp] theorem withFetchWord_unacquired (nbits w : Nat) : (s.withFetchWord nbits w).unacquired = s.unacquired := rfl
@[simp] theorem withFetchWord_claims (nbits w : Nat) : (s.withFetchWord nbits w).claims = s.claims := rfl
@[simp] theorem withFetchWord_inbox (nbits w : Nat) : (s.withFetchWord nbits w).inbox = .port 32 (.write 0 (tableWord nbits w)) :: s.inbox := rfl
@[simp] theorem withFetchWord_replies (nbits w : Nat) : (s.withFetchWord nbits w).replies = s.replies := rfl

variable (c : Config)

@[simp] theorem initial_cfg : (State.initial c).cfg = c := rfl
@[simp] theorem initial_sel : (State.initial c).sel = 0 := rfl
@[simp] theorem initial_base : (State.initial c).base = 0 := rfl
@[simp] theorem initial_len : (State.initial c).len = 0 := rfl
@[simp] theorem initial_sample : (State.initial c).sample = 0 := rfl
@[simp] theorem initial_result : (State.initial c).result = 0 := rfl
@[simp] theorem initial_errGiven : (State.initial c).errGiven = 0 := rfl
@[simp] theorem initial_errMax : (State.initial c).errMax = 0 := rfl
@[simp] theorem initial_done : (State.initial c).done = false := rfl
@[simp] theorem initial_err : (State.initial c).err = .ok := rfl
@[simp] theorem initial_dropped : (State.initial c).dropped = false := rfl
@[simp] theorem initial_phase : (State.initial c).phase = .idle := rfl
@[simp] theorem initial_lsel : (State.initial c).lsel = 0 := rfl
@[simp] theorem initial_lbase : (State.initial c).lbase = 0 := rfl
@[simp] theorem initial_endOff : (State.initial c).endOff = 0 := rfl
@[simp] theorem initial_cur : (State.initial c).cur = 0 := rfl
@[simp] theorem initial_mem : (State.initial c).mem = [] := rfl
@[simp] theorem initial_snapshot : (State.initial c).snapshot = [] := rfl
@[simp] theorem initial_unacquired : (State.initial c).unacquired = [] := rfl
@[simp] theorem initial_claims : (State.initial c).claims = [] := rfl
@[simp] theorem initial_inbox : (State.initial c).inbox = [] := rfl
@[simp] theorem initial_replies : (State.initial c).replies = [] := rfl

@[simp] theorem resetBlock_cfg (mapped : List Nat) : (resetBlock mapped s).cfg = s.cfg := rfl
@[simp] theorem resetBlock_sel (mapped : List Nat) : (resetBlock mapped s).sel = 0 := rfl
@[simp] theorem resetBlock_base (mapped : List Nat) : (resetBlock mapped s).base = 0 := rfl
@[simp] theorem resetBlock_len (mapped : List Nat) : (resetBlock mapped s).len = 0 := rfl
@[simp] theorem resetBlock_sample (mapped : List Nat) : (resetBlock mapped s).sample = 0 := rfl
@[simp] theorem resetBlock_result (mapped : List Nat) : (resetBlock mapped s).result = 0 := rfl
@[simp] theorem resetBlock_errGiven (mapped : List Nat) : (resetBlock mapped s).errGiven = 0 := rfl
@[simp] theorem resetBlock_errMax (mapped : List Nat) : (resetBlock mapped s).errMax = 0 := rfl
@[simp] theorem resetBlock_done (mapped : List Nat) : (resetBlock mapped s).done = false := rfl
@[simp] theorem resetBlock_err (mapped : List Nat) : (resetBlock mapped s).err = .ok := rfl
@[simp] theorem resetBlock_dropped (mapped : List Nat) : (resetBlock mapped s).dropped = false := rfl
@[simp] theorem resetBlock_phase (mapped : List Nat) : (resetBlock mapped s).phase = .idle := rfl
@[simp] theorem resetBlock_lsel (mapped : List Nat) : (resetBlock mapped s).lsel = 0 := rfl
@[simp] theorem resetBlock_lbase (mapped : List Nat) : (resetBlock mapped s).lbase = 0 := rfl
@[simp] theorem resetBlock_endOff (mapped : List Nat) : (resetBlock mapped s).endOff = 0 := rfl
@[simp] theorem resetBlock_cur (mapped : List Nat) : (resetBlock mapped s).cur = 0 := rfl
@[simp] theorem resetBlock_mem (mapped : List Nat) : (resetBlock mapped s).mem = resetMemory mapped s := rfl
@[simp] theorem resetBlock_snapshot (mapped : List Nat) : (resetBlock mapped s).snapshot = [] := rfl
@[simp] theorem resetBlock_unacquired (mapped : List Nat) : (resetBlock mapped s).unacquired = if s.phase = .run then s.runSpan :: s.unacquired else s.unacquired := rfl
@[simp] theorem resetBlock_claims (mapped : List Nat) : (resetBlock mapped s).claims = s.claims := rfl
@[simp] theorem resetBlock_inbox (mapped : List Nat) : (resetBlock mapped s).inbox = s.inbox := rfl
@[simp] theorem resetBlock_replies (mapped : List Nat) : (resetBlock mapped s).replies = s.replies := rfl

end Sys2Proof.Machine.State
end

