-- ==== Sys2Proof/Laws/Ops.lean ====
section
/-! SUPPORT. For each shared operation and each meaning, everything it can do. Later proofs cite these
and do not unfold the operation. -/

namespace Sys2Proof.Machine

/-! ### Commands -/

theorem exec_of_run {s : State} (i : Instr) (h : s.phase = .run) : exec i s = .next s.drop := by
  cases i <;> simp [exec, execApply, execEval, h]

theorem exec_apply_of_idle {s : State} (h : s.phase = .idle) : exec .apply s = acceptApply s := by
  simp [exec, execApply, h]

theorem exec_eval_of_idle {s : State} (h : s.phase = .idle) : exec .eval s = acceptEval s := by
  simp [exec, execEval, h]

theorem cmdWrite_of_run {s : State} (w : Word) (h : s.phase = .run) : cmdWrite w s = .next s.drop := by
  simp [cmdWrite, h]

theorem acceptApply_cases {s t : State} (h : acceptApply s = .next t) :
    (SelectorInvalid s ∧ t = s.clearDone.report .invalidCurveSelector s.sel maxCurveId) ∨
    (¬ SelectorInvalid s ∧ Wraps s ∧ t = s.clearDone.report .nonContiguousBuffer 0 0) ∨
    (¬ SelectorInvalid s ∧ ¬ Wraps s ∧ ¬ BufferMisplaced s ∧ s.sel = 0 ∧ t = s.clearDone.completeOk) ∨
    (¬ SelectorInvalid s ∧ ¬ Wraps s ∧ ¬ BufferMisplaced s ∧ s.sel ≠ 0 ∧ t = s.clearDone.beginRun) := by
  unfold acceptApply at h
  split at h
  · next h1 => cases h; exact .inl ⟨h1, rfl⟩
  split at h
  · next h1 h2 => cases h; exact .inr (.inl ⟨h1, h2, rfl⟩)
  split at h
  · cases h
  split at h
  · next h1 h2 h3 h4 => cases h; exact .inr (.inr (.inl ⟨h1, h2, h3, h4, rfl⟩))
  · next h1 h2 h3 h4 => cases h; exact .inr (.inr (.inr ⟨h1, h2, h3, h4, rfl⟩))

theorem acceptApply_of_misplaced {s : State} (h1 : ¬ SelectorInvalid s) (h2 : ¬ Wraps s)
    (h3 : BufferMisplaced s) : acceptApply s = .fault .bufferPlacement := by
  unfold acceptApply
  rw [if_neg h1, if_neg h2, if_pos h3]

theorem acceptEval_cases {s t : State} (h : acceptEval s = .next t) :
    (SelectorInvalid s ∧ t = s.clearDone.report .invalidCurveSelector s.sel maxCurveId) ∨
    (¬ SelectorInvalid s ∧ t = { s.clearDone.completeOk with result := evalByte s }) := by
  unfold acceptEval at h
  split at h
  · next h1 => cases h; exact .inl ⟨h1, rfl⟩
  · next h1 => cases h; exact .inr ⟨h1, rfl⟩

theorem cmdWrite_cases {s t : State} {w : Word} (h : cmdWrite w s = .next t) :
    (s.phase = .run ∧ t = s.drop) ∨
    (s.phase = .idle ∧ decode w = .ok .apply ∧ acceptApply s = .next t) ∨
    (s.phase = .idle ∧ decode w = .ok .eval ∧ acceptEval s = .next t) ∨
    (s.phase = .idle ∧ (∃ why, decode w = .error why) ∧
      t = s.clearDone.report .illegalCommand 0 0) := by
  unfold cmdWrite at h
  split at h
  · next hp => cases h; exact .inl ⟨hp, rfl⟩
  · next hp =>
    split at h
    · next i hi =>
      cases i
      · rw [exec_apply_of_idle hp] at h; exact .inr (.inl ⟨hp, hi, h⟩)
      · rw [exec_eval_of_idle hp] at h; exact .inr (.inr (.inl ⟨hp, hi, h⟩))
    · next why hw =>
      cases h; exact .inr (.inr (.inr ⟨hp, ⟨why, hw⟩, rfl⟩))

/-! ### The host port -/

theorem portAccess_of_read (slot : BitVec 6) (s : State) :
    portAccess 32 (.read slot) s = portRead slot s := by simp [portAccess]

theorem portAccess_of_write (slot : BitVec 6) (w : Word) (s : State) :
    portAccess 32 (.write slot w) s = hostWrite (regAt slot) w s := by simp [portAccess]

theorem hostWrite_cases {s t : State} {r : Reg} {w : Word} (h : hostWrite r w s = .next t) :
    (r = .cmd ∧ cmdWrite w s = .next t) ∨ (r = .status ∧ t = s.writeStatus w) ∨
    (r = .sel ∧ t = { s with sel := w }) ∨ (r = .base ∧ t = { s with base := truncAw s.cfg.aw w }) ∨
    (r = .len ∧ t = { s with len := w }) ∨ (r = .sample ∧ t = { s with sample := truncSample w }) ∨
    t = s := by
  cases r <;> simp_all [hostWrite]

theorem portAccess_cases {s t : State} {bits : Nat} {access : PortAccess}
    (h : portAccess bits access s = .next t) :
    bits = 32 ∧
    ((∃ slot, access = .read slot ∧
        t = (s.acquireOn (regAt slot)).reply (.reg slot (hostRead s (regAt slot)))) ∨
     (∃ slot w, access = .write slot w ∧ hostWrite (regAt slot) w s = .next t)) := by
  unfold portAccess at h
  split at h
  · cases h
  · next hb =>
    refine ⟨not_not.1 hb, ?_⟩
    cases access with
    | read slot => simp only [portRead] at h; cases h; exact .inl ⟨slot, rfl, rfl⟩
    | write slot w => exact .inr ⟨slot, w, rfl, h⟩

theorem regAt_eq_cmd {slot : BitVec 6} (h : regAt slot = .cmd) : slot = 0 := by
  revert slot; decide

theorem regAt_eq_status {slot : BitVec 6} (h : regAt slot = .status) : slot = 1 := by
  revert slot; decide

/-- A port access that goes on, by what it changes: what the host holds, a command's effect, DROPPED, or
an operand register. -/
theorem portAccess_next_cases {s t : State} {bits : Nat} {access : PortAccess}
    (h : portAccess bits access s = .next t) :
    bits = 32 ∧
    ((∃ slot, access = .read slot ∧
        t = (s.acquireOn (regAt slot)).reply (.reg slot (hostRead s (regAt slot)))) ∨
     (∃ w, access = .write 0 w ∧ cmdWrite w s = .next t) ∨
     (∃ w, access = .write 1 w ∧ t = s.writeStatus w) ∨
     (∃ slot w, access = .write slot w ∧ slot ≠ 0 ∧ slot ≠ 1 ∧
        ∃ sel base len sample, t = { s with sel := sel, base := base, len := len, sample := sample })) := by
  obtain ⟨hb, ⟨slot, rfl, rfl⟩ | ⟨slot, w, rfl, hw⟩⟩ := portAccess_cases h
  · exact ⟨hb, .inl ⟨slot, rfl, rfl⟩⟩
  · refine ⟨hb, .inr ?_⟩
    by_cases h0 : slot = 0
    · subst h0; exact .inl ⟨w, rfl, hw⟩
    by_cases h1 : slot = 1
    · subst h1; cases hw; exact .inr (.inl ⟨w, rfl, rfl⟩)
    refine .inr (.inr ⟨slot, w, rfl, h0, h1, ?_⟩)
    rcases hostWrite_cases hw with ⟨h, _⟩ | ⟨h, _⟩ | ⟨_, rfl⟩ | ⟨_, rfl⟩ | ⟨_, rfl⟩ | ⟨_, rfl⟩ | rfl
    · exact absurd (regAt_eq_cmd h) h0
    · exact absurd (regAt_eq_status h) h1
    all_goals exact ⟨_, _, _, _, rfl⟩

/-- Bit 8 of a written word, as STATUS takes it. -/
theorem getLsbD_eight (w : Word) : w.getLsbD 8 = decide (w.toNat / 256 % 2 = 1) := by
  simp only [BitVec.getLsbD, Nat.testBit, Nat.shiftRight_eq_div_pow]
  by_cases h : w.toNat / 256 % 2 = 1 <;> simp [h]

/-- `3 * (LEN div 3)` fits LEN's 32 bits. -/
theorem wholeGroups_toNat (len : Word) : (wholeGroups len).toNat = 3 * (len.toNat / 3) := by
  have := len.isLt
  simp only [wholeGroups, stride, BitVec.toNat_ofNat]
  omega

/-! ### The engine -/

theorem engineStep_of_idle {s : State} (admits : Bool) (h : s.phase = .idle) :
    engineStep admits s = .next s := by
  simp [engineStep, h]

theorem byteStep_next {admits : Bool} {s t : State} (h : byteStep admits s = .next t) :
    admits = true ∧ ¬ Foreign s s.nextAddr ∧ Ordinary s.cfg s.nextAddr ∧
      t = { s with
        mem := s.mem.write s.nextAddr (lut s.lsel (s.mem.read s.nextAddr)), cur := s.cur + 1 } := by
  unfold byteStep at h
  split at h
  · cases h
  · next hf =>
    split at h
    · next ho => cases h; exact ⟨ho.1, hf, ho.2, rfl⟩
    · cases h

theorem byteStep_of_open {s : State} (hf : ¬ Foreign s s.nextAddr) (ho : Ordinary s.cfg s.nextAddr) :
    byteStep true s = .next { s with
      mem := s.mem.write s.nextAddr (lut s.lsel (s.mem.read s.nextAddr)), cur := s.cur + 1 } := by
  unfold byteStep
  rw [if_neg hf, if_pos ⟨rfl, ho⟩]

theorem engineStep_cases {admits : Bool} {s t : State} (h : engineStep admits s = .next t) :
    (s.phase = .idle ∧ t = s) ∨
    (s.phase = .run ∧ s.cur.toNat < s.endOff.toNat ∧ admits = true ∧ ¬ Foreign s s.nextAddr ∧
      Ordinary s.cfg s.nextAddr ∧
      t = { s with
        mem := s.mem.write s.nextAddr (lut s.lsel (s.mem.read s.nextAddr)), cur := s.cur + 1 }) ∨
    (s.phase = .run ∧ s.cur = s.endOff ∧ t = s.endRun.completeOk) ∨
    (s.phase = .run ∧ s.endOff.toNat < s.cur.toNat ∧ t = s) := by
  unfold engineStep at h
  split at h
  · next hp => cases h; exact .inl ⟨hp, rfl⟩
  · next hp =>
    split at h
    · next hc =>
      exact .inr (.inl ⟨hp, hc, byteStep_next h⟩)
    · next hc =>
      split at h
      · next he => cases h; exact .inr (.inr (.inl ⟨hp, he, rfl⟩))
      · next he =>
        cases h
        have : s.cur.toNat ≠ s.endOff.toNat := fun e => he (BitVec.eq_of_toNat_eq e)
        exact .inr (.inr (.inr ⟨hp, by omega, rfl⟩))

/-! ### Accesses of the other agents -/

theorem guardAccess_next {agent : Agent} {a : Nat} {s d t : State}
    (h : guardAccess agent a s d = .next t) :
    a < 2 ^ s.cfg.aw ∧ ¬ Races agent s a ∧ Ordinary s.cfg a ∧ t = d := by
  unfold guardAccess at h
  split at h
  · cases h
  · next h1 =>
    split at h
    · cases h
    · next h2 =>
      split at h
      · next h3 => cases h; exact ⟨by omega, h2, h3, rfl⟩
      · cases h

theorem guardAccess_of_open {agent : Agent} {a : Nat} {s d : State} (ho : Ordinary s.cfg a)
    (he : ¬ Races agent s a) : guardAccess agent a s d = .next d := by
  unfold guardAccess
  rw [if_neg (Nat.not_le.2 ho.1), if_neg he, if_pos ho]

theorem memRead_cases {agent : Agent} {a : Nat} {s t : State} (h : memRead agent a s = .next t) :
    ¬ Races agent s a ∧ Ordinary s.cfg a ∧
    ((agent = .host ∧ t = s.reply (.byte a (s.mem.read a))) ∨ (agent ≠ .host ∧ t = s)) := by
  cases agent <;> simp only [memRead] at h <;> obtain ⟨-, h1, h2, rfl⟩ := guardAccess_next h <;>
    exact ⟨h1, h2, by simp⟩

theorem memWrite_cases {agent : Agent} {a : Nat} {v : Byte} {s t : State}
    (h : memWrite agent a v s = .next t) :
    ¬ Races agent s a ∧ Ordinary s.cfg a ∧ t = { s with mem := s.mem.write a v } := by
  obtain ⟨-, h1, h2, rfl⟩ := guardAccess_next h
  exact ⟨h1, h2, rfl⟩

/-- An access that races, whether a read or a write. -/
theorem guardAccess_of_races {agent : Agent} {a : Nat} {s d : State} (ha : a < 2 ^ s.cfg.aw)
    (hr : Races agent s a) : guardAccess agent a s d = .fault (.bufferRace a) := by
  unfold guardAccess
  rw [if_neg (Nat.not_le.2 ha), if_pos hr]

theorem memRead_of_races {agent : Agent} {a : Nat} {s : State} (ha : a < 2 ^ s.cfg.aw)
    (hr : Races agent s a) : memRead agent a s = .fault (.bufferRace a) := by
  cases agent <;> exact guardAccess_of_races ha hr

theorem memWrite_of_races {agent : Agent} {a : Nat} {v : Byte} {s : State} (ha : a < 2 ^ s.cfg.aw)
    (hr : Races agent s a) : memWrite agent a v s = .fault (.bufferRace a) :=
  guardAccess_of_races ha hr

/-! ### The step -/

theorem step_of_nil {s : State} (h : s.inbox = []) : step s = engineStep true s := by simp [step, h]

theorem step_of_cons {s : State} {e : Event} {rest : List Event} (h : s.inbox = e :: rest) :
    step s = runEvent e { s with inbox := rest } := by simp [step, h]

/-- Everything a step that goes on has done, from the state with the event taken out. -/
theorem step_cases {s t : State} (h : step s = .next t) :
    (s.inbox = [] ∧ engineStep true s = .next t) ∨
    ∃ e rest, s.inbox = e :: rest ∧ runEvent e { s with inbox := rest } = .next t := by
  unfold step at h
  split at h
  · next hn => exact .inl ⟨hn, h⟩
  · next e rest hc => exact .inr ⟨e, rest, hc, h⟩

theorem runEvent_cases {s t : State} {e : Event} (h : runEvent e s = .next t) :
    (∃ bits access, e = .port bits access ∧ portAccess bits access s = .next t) ∨
    (∃ agent a, e = .memRead agent a ∧ memRead agent a s = .next t) ∨
    (∃ agent a v, e = .memWrite agent a v ∧ memWrite agent a v s = .next t) ∨
    (∃ admits, e = .engine admits ∧ engineStep admits s = .next t) ∨
    (∃ mapped, e = .reset mapped ∧ t = resetBlock mapped s) ∨
    (∃ id base size, e = .otherRun id base size ∧ t = s.otherRun id base size) ∨
    (∃ id, e = .otherEnd id ∧ t = s.otherEnd id) := by
  cases e <;> simp_all [runEvent]

end Sys2Proof.Machine
end

