-- ==== Sys2Proof/Laws/PerInstr.lean ====
section
/-! SUPPORT. One lemma per command: its word has MBZ zero and its own OPCODE (R90, R92). -/

namespace Sys2Proof.Laws.EncodingFields

def Statement (i : Instr) : Prop := mbzOf (encode i) = 0 ∧ opcodeOf (encode i) = opcodeFor i

theorem apply : Statement .apply := ⟨by decide, by decide⟩

theorem eval : Statement .eval := ⟨by decide, by decide⟩

end Sys2Proof.Laws.EncodingFields
end

