-- ==== Sys2Proof/Laws/Run.lean ====
section
/-! SUPPORT. Runs: one step at a time, in two parts, and that they are the host's own runs of this machine. -/

namespace Sys2Proof.Machine

theorem runFor_zero (s : State) : runFor 0 s = .next s := rfl

theorem runFor_succ (k : Nat) (s : State) : runFor (k + 1) s =
    match step s with
    | .next t => runFor k t
    | .fault p => .fault p
    | .refused p => .refused p := rfl

theorem runFor_of_next {s t : State} (k : Nat) (h : step s = .next t) :
    runFor (k + 1) s = runFor k t := by simp [runFor, h]

theorem runFor_add {s t : State} (j k : Nat) (h : runFor j s = .next t) :
    runFor (j + k) s = runFor k t := by
  induction j generalizing s with
  | zero => cases h; rw [Nat.zero_add]
  | succ j ih =>
    rw [Nat.succ_add]
    rw [runFor_succ] at h ⊢
    rcases hu : step s with u | p | p <;> rw [hu] at h
    · exact ih h
    · cases h
    · cases h

theorem runFor_eq_host_run (k : Nat) (s : State) :
    runFor k s = Host.Core.run Sys2Proof.core k s := by
  induction k generalizing s with
  | zero => rfl
  | succ k ih =>
    rcases h : step s with t | p | p
    · have h' : Sys2Proof.core.step s = .next t := h
      rw [runFor_of_next k h, ih]
      simp only [Host.Core.run, h']
      rfl
    · have h' : Sys2Proof.core.step s = .fault p := h
      simp only [Host.Core.run, h', runFor, h]
      rfl
    · have h' : Sys2Proof.core.step s = .refused p := h
      simp only [Host.Core.run, h', runFor, h]
      rfl

/-- The step of a state in which the engine moves next. -/
theorem step_of_engineTurn {s : State} {admits : Bool} {rest : List Event}
    (h : EngineTurn s admits rest) : step s = engineStep admits { s with inbox := rest } := by
  rcases h with ⟨h, rfl, rfl⟩ | h
  · rw [step_of_nil h]; congr 1; rw [← h]
  · exact step_of_cons h

/-- The step of a state whose next event stands written out. -/
theorem step_with_event (s : State) (e : Event) (rest : List Event) :
    step { s with inbox := e :: rest } = runEvent e { s with inbox := rest } := rfl

theorem runEvent_rd (offset : Nat) (s : State) :
    runEvent (rd offset) s = portRead (slotOf offset) s := portAccess_of_read _ _

theorem runEvent_wr (offset : Nat) (w : Word) (s : State) :
    runEvent (wr offset w) s = hostWrite (regAt (slotOf offset)) w s := portAccess_of_write _ _ _

/-- Everything a step that goes on has done, by whose turn it was. -/
theorem step_next_cases {s t : State} (h : step s = .next t) :
    (∃ admits rest, EngineTurn s admits rest ∧
      engineStep admits { s with inbox := rest } = .next t) ∨
    (∃ bits access rest, s.inbox = .port bits access :: rest ∧
      portAccess bits access { s with inbox := rest } = .next t) ∨
    (∃ agent a rest, s.inbox = .memRead agent a :: rest ∧
      memRead agent a { s with inbox := rest } = .next t) ∨
    (∃ agent a v rest, s.inbox = .memWrite agent a v :: rest ∧
      memWrite agent a v { s with inbox := rest } = .next t) ∨
    (∃ mapped rest, s.inbox = .reset mapped :: rest ∧
      t = resetBlock mapped { s with inbox := rest }) ∨
    (∃ id base size rest, s.inbox = .otherRun id base size :: rest ∧
      t = { s with inbox := rest }.otherRun id base size) ∨
    (∃ id rest, s.inbox = .otherEnd id :: rest ∧ t = { s with inbox := rest }.otherEnd id) := by
  rcases step_cases h with ⟨hn, he⟩ | ⟨e, rest, hc, he⟩
  · exact .inl ⟨true, [], .inl ⟨hn, rfl, rfl⟩, by rw [← he, ← hn]⟩
  · rcases runEvent_cases he with ⟨b, a, rfl, h⟩ | ⟨g, a, rfl, h⟩ | ⟨g, a, v, rfl, h⟩ | ⟨d, rfl, h⟩ |
      ⟨m, rfl, h⟩ | ⟨id, b, n, rfl, h⟩ | ⟨id, rfl, h⟩
    · exact .inr (.inl ⟨b, a, rest, hc, h⟩)
    · exact .inr (.inr (.inl ⟨g, a, rest, hc, h⟩))
    · exact .inr (.inr (.inr (.inl ⟨g, a, v, rest, hc, h⟩)))
    · exact .inl ⟨d, rest, .inr hc, h⟩
    · exact .inr (.inr (.inr (.inr (.inl ⟨m, rest, hc, h⟩))))
    · exact .inr (.inr (.inr (.inr (.inr (.inl ⟨id, b, n, rest, hc, h⟩)))))
    · exact .inr (.inr (.inr (.inr (.inr (.inr ⟨id, rest, hc, h⟩)))))

end Sys2Proof.Machine
end

