-- ==== Sys2Proof/Tests/Slice0.lean ====
section
/-! SUPPORT. Tests against the spec's own words and values (95_test_vectors.md, and the tables of the rule
files), and for each statement with hypotheses a witness: a state and operands that meet them. -/

namespace Sys2Proof.Tests

open Sys2Proof.Machine

/-! ### Helpers -/

def nextOf (o : Host.Outcome State Fault Refusal) : Option State :=
  match o with
  | .next s => some s
  | .fault _ => none
  | .refused _ => none

def faultOf (o : Host.Outcome State Fault Refusal) : Option Fault :=
  match o with
  | .next _ => none
  | .fault f => some f
  | .refused _ => none

def refusalOf (o : Host.Outcome State Fault Refusal) : Option Refusal :=
  match o with
  | .next _ => none
  | .fault _ => none
  | .refused r => some r

/-- IDLE, with the operand registers as given. -/
def ready (sel base len : Word) (sample : Byte) : State :=
  { State.reset with sel := sel, base := base, len := len, sample := sample }

/-- `apply 1, 0x1000, 4` on [170, 170, 170, 77] after `k` of its byte steps. -/
def running (k : Nat) : State :=
  { State.reset with
    sel := 1, base := 0x1000, len := 4, lsel := 1, lbase := 0x1000, endOff := 3
    cur := BitVec.ofNat 32 k, phase := .run
    mem := [(0x1000, if 0 < k then 20 else 170), (0x1001, if 1 < k then 20 else 170),
      (0x1002, if 2 < k then 20 else 170), (0x1003, 77)]
    snapshot := [(0x1000, 170), (0x1001, 170), (0x1002, 170), (0x1003, 77)] }

/-- The state before event `e`. -/
def before (e : Event) (s : State) : State := { s with inbox := [e] }

/-- A platform with `AW` = 16 and one range that is not ordinary memory. -/
def platform (kind : RegionKind) : Config := { aw := 16, memMap := [⟨0x2000, 4, kind⟩] }

/-! ### Command words, bit by bit from R90 and R92 (95_test_vectors.md 2.2) -/

theorem test_decode_apply : decode 0b00000000000000000000000000000001 = .ok .apply := by decide
theorem test_decode_eval : decode 0b00000000000000000000000000000010 = .ok .eval := by decide
theorem test_encode_apply : encode .apply = 0b00000000000000000000000000000001 := by decide
theorem test_encode_eval : encode .eval = 0b00000000000000000000000000000010 := by decide
/-- A reserved opcode (R92). -/
theorem test_decode_three : decode 0b00000000000000000000000000000011 = .error .reservedOpcode := by
  decide
/-- MBZ bit 8 set over the OPCODE of APPLY (R90). -/
theorem test_decode_mbz : decode 0b00000000000000000000000100000001 = .error .mbzNonZero := by decide
/-- The opcode table's rows. -/
theorem test_table_rows : decodeTableWord 32 1 = some .apply ∧ decodeTableWord 32 2 = some .eval ∧
    decodeTableWord 32 0 = none := by decide

/-! ### Well-formedness smoke: R11, and every command -/

theorem test_wf_aw_zero : ({ aw := 0, memMap := [] } : Config).wf = false := by decide
theorem test_wf_aw_too_wide : ({ aw := 33, memMap := [] } : Config).wf = false := by decide
theorem test_wf_aw_ends : ({ aw := 1, memMap := [] } : Config).wf = true ∧
    ({ aw := 32, memMap := [] } : Config).wf = true := by decide
theorem test_wf_commands : Instr.apply.wf = true ∧ Instr.eval.wf = true := by decide

/-! ### APPLY and EVAL (95_test_vectors.md 2.3 and 2.4) -/

theorem test_apply_enters_run :
    (nextOf (exec .apply (ready 1 0x1000 7 0))).map (fun t => (t.statusWord, t.endOff, t.lsel, t.cur)) =
      some (0x00000001, 6, 1, 0) := by decide
theorem test_apply_wraps :
    (nextOf (exec .apply (ready 0 0xFFFFFFFE 3 0))).map (fun t => (t.statusWord, t.errGiven, t.errMax)) =
      some (0x00000022, 0, 0) := by decide
/-- A tie, where binary64 software gives 126. -/
theorem test_eval_tie :
    (nextOf (exec .eval (ready 3 0 0 69))).map (fun t => (t.result, t.statusWord)) =
      some (127, 0x00000002) := by decide
theorem test_eval_invalid_selector :
    (nextOf (exec .eval { ready 4 0 0 10 with result := 0xAA })).map
      (fun t => (t.result, t.statusWord, t.errGiven, t.errMax)) =
      some (0xAA, 0x00000012, 4, 3) := by decide
/-- `wr CMD, 0` (P2, line 15). -/
theorem test_illegal_command :
    (nextOf (step (before (wr 0x00 0) (ready 0 0x3000 3 0)))).map
      (fun t => (t.statusWord, t.errGiven, t.errMax)) = some (0x00000032, 0, 0) := by decide

/-! ### The engine (P1, P3, 95_test_vectors.md 2.6) -/

theorem test_engine_byte :
    (nextOf (step (running 1))).map (fun t => (t.mem, t.cur, t.statusWord)) =
      some ([(0x1000, 20), (0x1001, 20), (0x1002, 170), (0x1003, 77)], 2, 0x00000001) := by decide
theorem test_engine_completion :
    (nextOf (step (running 3))).map (fun t => (t.mem, t.phase, t.statusWord)) =
      some ([(0x1000, 20), (0x1001, 20), (0x1002, 20), (0x1003, 77)], .idle, 0x00000002) := by decide
/-- `apply 1, b, 3` with b in unmapped memory. -/
theorem test_engine_unmapped :
    faultOf (step { running 0 with cfg := platform .hole, lbase := 0x2000 }) =
      some (.memPortError 0x2000) := by decide
/-- A bus error on ordinary memory (93_implementation_defined.md item 2). -/
theorem test_engine_bus_error :
    faultOf (step (before (.engine false) (running 1))) = some (.memPortError 0x1001) := by decide
/-- A byte of another MTC's running buffer (R81), for the engine and for the host. -/
theorem test_foreign_territory :
    faultOf (step { running 1 with claims := [⟨7, ⟨0x1001, 3⟩⟩] }) = some (.bufferRace 0x1001) ∧
    faultOf (step { before (.memRead .host 0x1003) (running 1) with claims := [⟨7, ⟨0x1001, 3⟩⟩] }) =
      some (.bufferRace 0x1003) := by decide
theorem test_command_while_busy :
    nextOf (step (before (wr 0x00 1) (running 1))) = some { running 1 with dropped := true } := by decide
theorem test_race :
    faultOf (step (before (.memRead .host 0x1000) (running 0))) = some (.bufferRace 0x1000) := by decide
/-- The trailing byte of LEN = 4 is not the engine's. -/
theorem test_trailing_byte :
    (nextOf (step (before (.memWrite .host 0x1003 5) (running 0)))).map (fun t => t.mem) =
      some [(0x1000, 170), (0x1001, 170), (0x1002, 170), (0x1003, 5)] := by decide
theorem test_placement :
    faultOf (exec .apply { ready 1 0x1FFE 3 0 with cfg := platform .device }) =
      some .bufferPlacement := by decide
/-- P6: byte 0 mapped, byte 1 not, the trailing byte as it was. -/
theorem test_reset_during_run :
    (nextOf (step (before (.reset [0]) (running 2)))).map (fun t => (t.mem, t.statusWord, t.phase)) =
      some ([(0x1000, 20), (0x1001, 170), (0x1002, 170), (0x1003, 77)], 0x00000000, .idle) := by decide

/-! ### Host access (95_test_vectors.md 2.5) -/

/-- "ligh" (P6, line 2). -/
theorem test_read_name :
    (nextOf (step (before (rd 0x50) State.reset))).map (fun t => t.replies) =
      some [.reg 20 0x6867696C] := by decide
theorem test_status_clear :
    (nextOf (step (before (wr 0x04 0x00000100) { State.reset with dropped := true, done := true }))).map
      (fun t => t.statusWord) = some 0x00000002 := by decide
theorem test_status_no_clear :
    (nextOf (step (before (wr 0x04 0x000000FF) { State.reset with dropped := true, done := true }))).map
      (fun t => t.statusWord) = some 0x00000102 := by decide
theorem test_base_truncates :
    (nextOf (step (before (wr 0x0C 0x12345678) { State.reset with cfg := platform .hole }))).map
      (fun t => t.base) = some 0x00005678 := by decide

/-! ### The tables (40_curves.md R121 to R123, 95_test_vectors.md 2.1) -/

/-- The sum of the 256 entries of a curve. -/
def tableSum (c : BitVec 2) : Nat :=
  (List.range 256).foldl (fun n b => n + (lut c (BitVec.ofNat 8 b)).toNat) 0

theorem test_table_sums : tableSum 1 = 13515 ∧ tableSum 2 = 27525 ∧ tableSum 3 = 45400 := by
  decide +kernel
theorem test_first_entries :
    (List.range 8).map (fun b => lut 1 (BitVec.ofNat 8 b)) = [0, 0, 0, 0, 0, 1, 1, 1] ∧
    (List.range 8).map (fun b => lut 2 (BitVec.ofNat 8 b)) = [0, 0, 0, 1, 1, 1, 1, 1] ∧
    (List.range 8).map (fun b => lut 3 (BitVec.ofNat 8 b)) = [0, 2, 4, 6, 7, 9, 11, 13] := by decide
/-- All ties, rounded up. -/
theorem test_ties : [3, 9, 15, 21, 27, 33].map (lut 2) = [1, 2, 3, 4, 5, 6] := by decide
/-- P3: applying a curve twice. -/
theorem test_not_idempotent : lut 1 170 = 20 ∧ lut 1 (lut 1 170) = 2 := by decide

/-! ### Witnesses: commands -/

theorem witness_DecodeAndEncodeAgree :
    Instr.apply.wf = true ∧ decode 1 = .ok .apply ∧ decodeTableWord 32 2 = some .eval := by decide
theorem witness_StepRunsTheDecodedCommand :
    (before (wr 0x00 1) (ready 1 0x1000 7 0)).inbox = [wr 0x00 1] ∧ decode 1 = .ok .apply ∧
      Instr.apply.wf = true := by decide
theorem witness_BusyCommandIsDropped :
    (before (wr 0x00 7) (running 1)).inbox = [wr 0x00 7] ∧ (running 1).phase = .run := by decide
theorem witness_CommandsAreDroppedWhileBusy : (running 0).phase = .run := by decide
theorem witness_IllegalCommandIsReported :
    (before (wr 0x00 3) State.reset).inbox = [wr 0x00 3] ∧ State.reset.phase = .idle ∧
      (3 : Word).toNat ≠ 1 ∧ (3 : Word).toNat ≠ 2 := by decide

/-- The three clauses, at the ends of their ranges: selector 0, 1, 3, 4 and 2^32 - 1. -/
theorem witness_EvalCompletes :
    (ready 0 0 0 200).phase = .idle ∧ (ready 0 0 0 200).sel.toNat = 0 ∧
    0 < (ready 1 0 0 170).sel.toNat ∧ (ready 3 0 0 69).sel.toNat ≤ 3 ∧
    3 < (ready 4 0 0 10).sel.toNat ∧ 3 < (ready 0xFFFFFFFF 0 0 0).sel.toNat := by decide
theorem witness_EvalIgnoresTheBuffer :
    (ready 1 0xFFFFFFFF 0xFFFFFFFF 255).phase = .idle ∧
      (nextOf (exec .eval (ready 1 0xFFFFFFFF 0xFFFFFFFF 255))).isSome = true := by decide
/-- Selector 1, with an engine that maps the sample's byte; and selector 0. -/
theorem witness_EvalAgreesWithApply :
    (ready 1 0 0 170).phase = .idle ∧ 0 < (ready 1 0 0 170).sel.toNat ∧
    (nextOf (exec .eval (ready 1 0 0 170))).isSome = true ∧
    (running 2).phase = .run ∧ (running 2).cur.toNat < (running 2).endOff.toNat ∧
    (running 2).lsel = BitVec.ofNat 2 (ready 1 0 0 170).sel.toNat ∧
    (running 2).mem.read (running 2).nextAddr = (ready 1 0 0 170).sample ∧
    (nextOf (engineStep true (running 2))).isSome = true ∧
    (ready 0 0 0 200).sel.toNat = 0 ∧ (nextOf (exec .apply (ready 0 0 0 200))).isSome = true := by decide
theorem witness_ApplyRejectsASelectorAboveThree :
    (ready 4 0x3000 3 0).phase = .idle ∧ 3 < (ready 4 0x3000 3 0).sel.toNat := by decide
/-- The least sum that is too large, 2^32 + 1, and the largest that is legal. -/
theorem witness_ApplyRejectsAWrappingBuffer :
    (ready 3 0xFFFFFFFD 3 0).sel.toNat ≤ 3 ∧
      (ready 3 0xFFFFFFFD 3 0).base.toNat + (ready 3 0xFFFFFFFD 3 0).len.toNat ≤
        2 ^ (ready 3 0xFFFFFFFD 3 0).cfg.aw ∧
      (nextOf (exec .apply (ready 3 0xFFFFFFFD 3 0))).isSome = true ∧
    (ready 3 0xFFFFFFFE 3 0).phase = .idle ∧ (ready 3 0xFFFFFFFE 3 0).sel.toNat ≤ 3 ∧
      2 ^ (ready 3 0xFFFFFFFE 3 0).cfg.aw <
        (ready 3 0xFFFFFFFE 3 0).base.toNat + (ready 3 0xFFFFFFFE 3 0).len.toNat := by decide
/-- The largest sum that is legal, 2^32; and unmapped memory, which no byte of the identity touches
(95_test_vectors.md 2.6). -/
theorem witness_ApplyIdentityTouchesNothing :
    (ready 0 0xFFFFFFFD 3 0).phase = .idle ∧ (ready 0 0xFFFFFFFD 3 0).sel.toNat = 0 ∧
      (ready 0 0xFFFFFFFD 3 0).base.toNat + (ready 0 0xFFFFFFFD 3 0).len.toNat ≤
        2 ^ (ready 0 0xFFFFFFFD 3 0).cfg.aw ∧
      (∀ r ∈ (ready 0 0xFFFFFFFD 3 0).cfg.memMap, r.kind = .hole) ∧
      (∀ r ∈ (platform .hole).memMap, r.kind = .hole) ∧
      (nextOf (exec .apply { ready 0 0x2000 3 0 with cfg := platform .hole })).map
        (fun t => t.statusWord) = some 0x00000002 := by decide
theorem witness_ApplyEntersRun :
    (ready 3 0xFFFFFFFD 3 0).phase = .idle ∧ 0 < (ready 3 0xFFFFFFFD 3 0).sel.toNat ∧
      (ready 3 0xFFFFFFFD 3 0).sel.toNat ≤ 3 ∧
      (ready 3 0xFFFFFFFD 3 0).base.toNat + (ready 3 0xFFFFFFFD 3 0).len.toNat ≤
        2 ^ (ready 3 0xFFFFFFFD 3 0).cfg.aw ∧
      ∀ a, (ready 3 0xFFFFFFFD 3 0).base.toNat ≤ a →
        a < (ready 3 0xFFFFFFFD 3 0).base.toNat + (ready 3 0xFFFFFFFD 3 0).len.toNat →
        ∀ r ∈ (ready 3 0xFFFFFFFD 3 0).cfg.memMap, r.kind ≠ .hole → ¬ Contains r a :=
  ⟨by decide, by decide, by decide, by decide, fun _ _ _ _ h => nomatch h⟩
/-- Both sides of the equivalence, at the ends of the selectors: a buffer whose last byte is the device's
first, and one that ends just below it. -/
theorem witness_ApplyRefusesAMisplacedBuffer :
    (ready 0 0x1FFE 3 0).phase = .idle ∧ (ready 3 0x1FFE 3 0).sel.toNat ≤ 3 ∧
      0x1FFE + 3 ≤ 2 ^ (platform .device).aw ∧
      (⟨0x2000, 4, .device⟩ : Region) ∈ (platform .device).memMap ∧
      Contains ⟨0x2000, 4, .device⟩ (0x1FFE + 2) ∧ ¬ Misplaced (platform .device) 0x1FFD 3 ∧
      faultOf (exec .apply { ready 0 0x1FFE 3 0 with cfg := platform .device }) =
        some .bufferPlacement := by decide

/-- The words where the clauses meet (95_test_vectors.md 2.2). -/
theorem witness_ExactlyTwoWordsAreLegal :
    decode 0x00000000 = .error .reservedOpcode ∧ decode 0x00000003 = .error .reservedOpcode ∧
    decode 0x000000FF = .error .reservedOpcode ∧ decode 0x00000100 = .error .mbzNonZero ∧
    decode 0xFFFFFFFF = .error .mbzNonZero := by decide

/-! ### Witnesses: frames and errors -/

/-- APPLY and EVAL, accepted, and APPLY dropped. -/
theorem witness_CommandFrame :
    (nextOf (exec .apply (ready 1 0x1000 7 0))).isSome = true ∧
    (nextOf (exec .eval (ready 1 0x1000 7 0))).isSome = true ∧
    (nextOf (exec .apply (running 0))).isSome = true := by decide
theorem witness_ErrorsArePrecise :
    (before (wr 0x00 1) (ready 4 0 3 0)).phase = .idle ∧
      (nextOf (step (before (wr 0x00 1) (ready 4 0 3 0)))).map (fun t => (t.done, t.err)) =
        some (true, .invalidCurveSelector) := by decide
theorem witness_RetryReportsTheSame :
    (ready 4 0 3 0).phase = .idle ∧
      (nextOf (exec .apply (ready 4 0 3 0))).map (fun t => t.done) = some true := by decide

/-! ### Witnesses: the engine -/

/-- Both forms of the engine's turn, the first and the last byte, a byte in a hole, and a rejected access. -/
theorem witness_ByteStepMapsOneByte :
    EngineTurn (running 0) true [] ∧ EngineTurn (before (.engine false) (running 2)) false [] ∧
    (running 0).phase = .run ∧ (running 0).cur.toNat < (running 0).endOff.toNat ∧
    (running 2).cur.toNat < (running 2).endOff.toNat ∧
    ¬ Foreign (running 0) 0x1000 ∧ ¬ Foreign (running 2) 0x1002 ∧
    Ordinary (running 0).cfg 0x1000 ∧ Ordinary (running 2).cfg 0x1002 ∧
    ¬ Ordinary (platform .hole) 0x2000 ∧ ¬ Ordinary (platform .hole) 0x2003 := by decide
theorem witness_CompletionStepReportsSuccess :
    EngineTurn (running 3) true [] ∧ EngineTurn (before (.engine false) (running 3)) false [] ∧
      (running 3).phase = .run ∧ (running 3).cur = (running 3).endOff := by decide
theorem witness_IdleEngineHasNoStep :
    EngineTurn State.reset true [] ∧ EngineTurn (before (.engine false) State.reset) false [] ∧
      State.reset.phase = .idle := by decide
/-- LEN = 7: two whole groups and a trailing byte. -/
theorem witness_ApplyMapsTheWholeGroups :
    (ready 1 0x1000 7 0).inbox = [] ∧ (ready 1 0x1000 7 0).phase = .idle ∧
    0 < (ready 1 0x1000 7 0).sel.toNat ∧ (ready 1 0x1000 7 0).sel.toNat ≤ 3 ∧
    0x1000 + 7 ≤ 2 ^ (ready 1 0x1000 7 0).cfg.aw ∧ ¬ Misplaced (ready 1 0x1000 7 0).cfg 0x1000 7 ∧
    ∀ i, i < 6 → Ordinary (ready 1 0x1000 7 0).cfg (0x1000 + i) ∧
      ¬ Foreign (ready 1 0x1000 7 0) (0x1000 + i) := by decide
/-- A byte step, which keeps the phase, and the completion, which does not. -/
theorem witness_EngineChangesOnlyTheReport :
    (nextOf (engineStep true (running 0))).map (fun t => t.phase) = some .run ∧
    (nextOf (engineStep false (running 3))).map (fun t => t.phase) = some .idle := by decide
/-- Every offset, with an engine that has a step. -/
theorem witness_OperandWritesCommuteWithTheEngine :
    ∀ offset ∈ [0x08, 0x0C, 0x10, 0x14],
      (nextOf (runFor 2 { running 0 with inbox := [wr offset 9, .engine true] })).map (fun t => t.cur) =
        some 1 := by decide

/-! ### Witnesses: registers -/

/-- The ends of each range of offsets: the reserved ones, and the NAME ROM's (R21, R36). -/
theorem witness_RegisterReads :
    [0x00, 0x28, 0x3C, 0x80, 0xFC, 0x7C].all (fun offset =>
      (nextOf (step (before (rd offset) (running 1)))).map (fun t => t.replies) ==
        some [.reg (slotOf offset) 0]) = true ∧
    (nextOf (step (before (rd 0x24) (running 1)))).map (fun t => t.replies) = some [.reg 9 3] ∧
    (nextOf (step (before (rd 0x40) (running 1)))).map (fun t => t.replies) =
      some [.reg 16 0x656E6F6E] := by decide
/-- The ends of the offsets that a write leaves as they are. -/
theorem witness_RegisterWrites :
    [0x18, 0x24, 0x28, 0x40, 0x7C, 0xFC].all (fun offset =>
      nextOf (step (before (wr offset 0xFFFFFFFF) (running 1))) == some (running 1)) = true := by decide
theorem witness_NameRomHoldsTheNames :
    (0 : Nat) < 4 ∧ (3 : Nat) < 4 ∧ (0 : Nat) < 16 ∧ (15 : Nat) < 16 ∧
      hostRead State.reset (regAt (slotOf 0x40)) = 0x656E6F6E := by decide
/-- Every offset, with a word that needs all 32 bits. -/
theorem witness_WrittenRegistersReadBack :
    [(0x08, 0xFFFFFFFF), (0x0C, 0xFFFF), (0x10, 0xFFFFFFFF), (0x14, 0xFF)].all (fun p =>
      (nextOf (runFor 2 { State.reset with
        cfg := platform .hole, inbox := [wr p.1 0xFFFFFFFF, rd p.1] })).map (fun t => t.replies) ==
          some [.reg (slotOf p.1) p.2]) = true ∧
    (0xFFFFFFFF : Word).toNat % 2 ^ (platform .hole).aw = 0xFFFF ∧
    (0xFFFFFFFF : Word).toNat % 256 = 0xFF := by decide
theorem witness_OtherWidthsAreRefused :
    (before (.port 8 (.read 1)) State.reset).inbox = [.port 8 (.read 1)] ∧ (8 : Nat) ≠ 32 := by decide
/-- The drop, the clear, the write that does not clear, and reset. -/
theorem witness_DroppedIsSticky :
    (nextOf (step (before (wr 0x00 1) (running 0)))).map (fun t => t.dropped) = some true ∧
    [(0x100, false), (0xFF, true)].all (fun p =>
      (nextOf (step (before (wr 0x04 p.1) { State.reset with dropped := true }))).map
        (fun t => t.dropped) == some p.2) = true ∧
    (nextOf (step (before (.reset []) { State.reset with dropped := true }))).map
      (fun t => t.dropped) = some false := by decide
/-- By EVAL, and by reset. -/
theorem witness_ResultChangesOnlyByEval :
    (nextOf (step (before (wr 0x00 2) (ready 1 0 0 170)))).map (fun t => t.result) = some 20 ∧
    (ready 1 0 0 170).result = 0 ∧
    (nextOf (step (before (.reset []) { State.reset with result := 5 }))).map
      (fun t => t.result) = some 0 := by decide
/-- Into RUN; out of it by the completion step and by reset. -/
theorem witness_PhaseChanges :
    (nextOf (step (before (wr 0x00 1) (ready 1 0x1000 7 0)))).map (fun t => t.phase) = some .run ∧
    (nextOf (step (running 3))).map (fun t => t.phase) = some .idle ∧
    (nextOf (step (before (.reset []) (running 1)))).map (fun t => t.phase) = some .idle := by decide
/-- A byte step, and an access that leaves CUR as it is. -/
theorem witness_LatchedOperandsAreFixed :
    (running 1).phase = .run ∧
    (nextOf (step (running 1))).map (fun t => (t.phase, t.cur)) = some (.run, 2) ∧
    (nextOf (step (before (wr 0x08 3) (running 1)))).map (fun t => (t.phase, t.cur)) =
      some (.run, 1) := by decide
theorem witness_ParametersNeverChange :
    (nextOf (step (running 0))).map (fun t => t.cfg) = some (running 0).cfg := by decide

/-! ### Witnesses: buffer memory -/

/-- A byte step, another agent's write, and a reset during RUN each change a byte. -/
theorem witness_OnlyTheseStepsChangeMemory :
    (running 0).mem.read 0x1000 = 170 ∧ (running 0).mem.read 0x1003 = 77 ∧
    (nextOf (step (running 0))).map (fun t => t.mem.read 0x1000) = some 20 ∧
    (nextOf (step (before (.memWrite .busMaster 0x1003 9) (running 0)))).map
      (fun t => t.mem.read 0x1003) = some 9 ∧
    (nextOf (step (before (.reset [0]) (running 0)))).map (fun t => t.mem.read 0x1000) = some 20 := by
  decide
/-- The first and the last byte of the range, a read and a write. -/
theorem witness_RacingAccessFaults :
    (running 0).phase = .run ∧ (running 0).lbase.toNat ≤ 0x1000 ∧
    0x1002 < (running 0).lbase.toNat + (running 0).endOff.toNat ∧ 0x1002 < 2 ^ (running 0).cfg.aw ∧
    (before (.memRead .host 0x1000) (running 0)).inbox = [.memRead .host 0x1000] ∧
    (before (.memWrite .busMaster 0x1002 0) (running 0)).inbox = [.memWrite .busMaster 0x1002 0] := by
  decide
/-- Just below and just above the running range, beside a range that is closed. -/
theorem witness_OpenBytesAreFreeToUse :
    (running 0).phase = .run ∧ Ordinary (running 0).cfg 0xFFF ∧ Ordinary (running 0).cfg 0x1003 ∧
    0xFFF < (running 0).lbase.toNat ∧
    (running 0).lbase.toNat + (running 0).endOff.toNat ≤ 0x1003 ∧
    (∀ p ∈ ({ running 0 with unacquired := [⟨0x2000, 3⟩] } : State).unacquired,
      0x1003 < p.base ∨ p.base + p.size ≤ 0x1003) ∧
    ∀ c ∈ ({ running 0 with claims := [⟨7, ⟨0x1004, 3⟩⟩] } : State).claims,
      0x1003 < c.span.base ∨ c.span.base + c.span.size ≤ 0x1003 := by decide
/-- A closed range at both ends, a step that keeps it and the one that opens it, and a running range at its
end and midway. -/
theorem witness_UnseenCompletionStaysClosed :
    (∃ p ∈ ({ State.reset with unacquired := [⟨0x2000, 3⟩] } : State).unacquired,
      p.Holds 0x2000 ∧ p.Holds 0x2002) ∧
    (nextOf (step (before (rd 0x08) { State.reset with unacquired := [⟨0x2000, 3⟩] }))).map
      (fun t => t.unacquired) = some [⟨0x2000, 3⟩] ∧
    (nextOf (step (before (rd 0x04) { State.reset with unacquired := [⟨0x2000, 3⟩] }))).map
      (fun t => t.unacquired) = some [] ∧
    (running 3).phase = .run ∧ (running 3).cur = (running 3).endOff ∧ (running 1).phase = .run ∧
    (running 3).lbase.toNat ≤ 0x1000 ∧
    0x1002 < (running 3).lbase.toNat + (running 3).endOff.toNat ∧ 0x1002 < 2 ^ (running 3).cfg.aw := by
  decide
/-- The engine at the territory's first byte, the host and a third MTC, and the owner. -/
theorem witness_ForeignTerritoryIsClosed :
    (⟨7, ⟨0x1001, 3⟩⟩ : Claim) ∈ ({ running 1 with claims := [⟨7, ⟨0x1001, 3⟩⟩] } : State).claims ∧
    (⟨0x1001, 3⟩ : Span).Holds 0x1001 ∧ (⟨0x1001, 3⟩ : Span).Holds 0x1003 ∧
    EngineTurn { running 1 with claims := [⟨7, ⟨0x1001, 3⟩⟩] } true [] ∧ (running 1).phase = .run ∧
    (running 1).cur.toNat < (running 1).endOff.toNat ∧
    0x1001 = (running 1).lbase.toNat + (running 1).cur.toNat ∧
    Agent.host ≠ .mtc 7 ∧ Agent.mtc 8 ≠ .mtc 7 ∧ 0x1003 < 2 ^ (running 1).cfg.aw ∧
    Ordinary (running 1).cfg 0x1003 ∧
    ¬ Exclusive { running 1 with claims := [⟨7, ⟨0x1001, 3⟩⟩] } 0x1003 := by decide
/-- A territory that begins, and one that ends beside another's. -/
theorem witness_TerritoriesBeginAndEnd :
    (nextOf (step (before (.otherRun 7 0x2000 3) State.reset))).map (fun t => t.claims) =
      some [⟨7, ⟨0x2000, 3⟩⟩] ∧
    (nextOf (step { before (.otherEnd 7) State.reset with
      claims := [⟨8, ⟨0, 3⟩⟩, ⟨7, ⟨0x2000, 3⟩⟩] })).map (fun t => t.claims) = some [⟨8, ⟨0, 3⟩⟩] := by
  decide
theorem witness_StatusReadOpensTheBuffer :
    State.reset.phase = .idle ∧ Ordinary State.reset.cfg 0x1002 ∧
      Ordinary State.reset.cfg 0xFFFFFFFF ∧ ¬ Foreign State.reset 0x1002 := by decide
/-- The first address that does not exist, and a byte in a hole. -/
theorem witness_AccessesOutsideMemoryStop :
    (before (.memRead .host 0x10000) State.reset).inbox = [.memRead .host 0x10000] ∧
    2 ^ (platform .hole).aw ≤ 0x10000 ∧ 0x2003 < 2 ^ (platform .hole).aw ∧
    ¬ Races .host { State.reset with cfg := platform .hole } 0x2003 ∧
    ∃ r ∈ (platform .hole).memMap, Contains r 0x2003 := by decide

/-! ### Witnesses: reset -/

theorem witness_ResetClearsTheBlock :
    (before (.reset []) (running 1)).inbox = [.reset []] := by decide
theorem witness_ResetWhileIdleKeepsMemory :
    (before (.reset []) (ready 1 0 0 0)).inbox = [.reset []] ∧ (ready 1 0 0 0).phase = .idle := by decide
/-- The first and the last offset, and the first byte past the range. -/
theorem witness_ResetDuringRun :
    (running 1).phase = .run ∧ 0 < (running 1).endOff.toNat ∧ 2 < (running 1).endOff.toNat ∧
      (running 1).lbase.toNat + (running 1).endOff.toNat ≤ 0x1003 := by decide

/-! ### Witnesses: curves -/

/-- Each curve, at both ends of the domain. -/
theorem witness_CurvesInterpolateTheirControlPoints :
    (1 : BitVec 2) ≠ 0 ∧ (3 : BitVec 2) ≠ 0 ∧ (0 : ℚ) ≤ 0 ∧ (255 : ℚ) ≤ 255 := by decide +kernel
theorem witness_LutIsMonotone : (0 : Byte).toNat ≤ (255 : Byte).toNat := by decide
/-- The first and the last tie, and a sample just past them that is none. -/
theorem witness_TiesAreExactlyThese :
    (2 : BitVec 2) ≠ 0 ∧ (3 : Byte).toNat % 6 = 3 ∧ (117 : Byte).toNat < 120 ∧
      (117 : Byte).toNat % 6 = 3 ∧ ¬ (123 : Byte).toNat < 120 := by decide

/-! ### Witnesses: the end of a run -/

/-- A final state with every other agent's event still waiting, and its step; a waiting host access, to the
registers or to memory, and RUN each keep a state from being final. -/
theorem witness_FinalStateStaysFinal :
    Final { State.reset with inbox := [.engine true, .memWrite .busMaster 0 1, .memRead (.mtc 7) 0,
      .otherRun 7 0 3, .otherEnd 7, .reset []] } ∧
    (nextOf (step { State.reset with inbox := [.memWrite .busMaster 0 1, .reset []] })).map
      (fun t => t.inbox) = some [.reset []] ∧
    ¬ Final (before (rd 0x04) State.reset) ∧ ¬ Final (before (.memRead .host 0) State.reset) ∧
    ¬ Final (before (.memWrite .host 0 1) State.reset) ∧ ¬ Final (running 3) := by decide

/-! ### Witnesses: headlines -/

/-- `apply 1, 0x1000, 4` after one byte step, with one of each benign event waiting. -/
def midway : State := { running 1 with inbox := [.engine true, wr 0x00 1, rd 0x04, .reset [0]] }

theorem midway_inv : Inv midway where
  cfgWf := by decide
  memWf := by decide
  snapshotWf := by decide
  memBelow := by decide
  baseBelow := by decide
  lbaseBelow := by decide
  curLeEnd := by decide
  endWhole := by decide
  errInvalid := by decide
  errOther := by decide
  runNotDone := by decide
  runSelector := by decide
  runInMemory := by decide
  runPlaced := by decide
  runMapped := fun _ => by
    show ∀ i, i < 1 → _
    decide
  runUnmapped := fun _ i h1 h2 => by
    have key : ∀ j, j < 3 → 1 ≤ j →
        midway.mem.read (midway.lbase.toNat + j) = midway.snapshot.read (midway.lbase.toNat + j) := by
      decide
    exact key i h2 h1

theorem witness_StepKeepsTheInvariant : Inv midway ∧ (nextOf (step midway)).isSome = true :=
  ⟨midway_inv, by decide⟩
/-- Two states that differ in what the engine's registers hold while IDLE. -/
theorem witness_IdleEngineRegistersAreUnobservable :
    forgetIdle { State.reset with lsel := 1, lbase := 0x1000, endOff := 6, cur := 6 } =
      forgetIdle State.reset := by decide
theorem witness_BenignStepGoesOn :
    Inv midway ∧ midway.cfg.memMap = [] ∧ midway.claims = [] ∧ ∀ e ∈ midway.inbox, e.benign = true :=
  ⟨midway_inv, by decide, by decide, by decide⟩
theorem witness_TheBlockNeverHalts :
    Inv midway ∧ midway.cfg.memMap = [] ∧ midway.claims = [] ∧ ∀ e ∈ midway.inbox, e.benign = true :=
  witness_BenignStepGoesOn

end Sys2Proof.Tests
end

section
/-! PROOFS. The scope rules (00_scope.md): the parameters are fixed, and every step keeps the invariant. For
each shared operation one lemma says that it keeps them; the step's own follow from its case lemma. -/

namespace Sys2Proof.Machine

/-! ### The parameters (R10, R61, R68) -/

theorem engineStep_cfg {admits : Bool} {s t : State} (h : engineStep admits s = .next t) :
    t.cfg = s.cfg := by
  rcases engineStep_cases h with ⟨-, rfl⟩ | ⟨-, -, -, -, -, rfl⟩ | ⟨-, -, rfl⟩ | ⟨-, -, rfl⟩ <;> rfl

theorem acceptApply_cfg {s t : State} (h : acceptApply s = .next t) : t.cfg = s.cfg := by
  rcases acceptApply_cases h with ⟨-, rfl⟩ | ⟨-, -, rfl⟩ | ⟨-, -, -, -, rfl⟩ | ⟨-, -, -, -, rfl⟩ <;> rfl

theorem acceptEval_cfg {s t : State} (h : acceptEval s = .next t) : t.cfg = s.cfg := by
  rcases acceptEval_cases h with ⟨-, rfl⟩ | ⟨-, rfl⟩ <;> rfl

theorem cmdWrite_cfg {s t : State} {w : Word} (h : cmdWrite w s = .next t) : t.cfg = s.cfg := by
  rcases cmdWrite_cases h with ⟨-, rfl⟩ | ⟨-, -, ha⟩ | ⟨-, -, he⟩ | ⟨-, -, rfl⟩
  · rfl
  · exact acceptApply_cfg ha
  · exact acceptEval_cfg he
  · rfl

theorem portAccess_cfg {s t : State} {bits : Nat} {access : PortAccess}
    (h : portAccess bits access s = .next t) : t.cfg = s.cfg := by
  obtain ⟨-, ⟨slot, -, rfl⟩ | ⟨w, -, hc⟩ | ⟨w, -, rfl⟩ | ⟨slot, w, -, -, -, sel, base, len, sample, rfl⟩⟩ :=
    portAccess_next_cases h
  · simp
  · exact cmdWrite_cfg hc
  · simp
  · rfl

theorem step_cfg {s t : State} (h : step s = .next t) : t.cfg = s.cfg := by
  rcases step_next_cases h with ⟨_, _, -, he⟩ | ⟨_, _, _, -, hp⟩ | ⟨_, _, _, -, hr⟩ | ⟨_, _, _, _, -, hw⟩ |
    ⟨_, _, -, rfl⟩ | ⟨_, _, _, _, -, rfl⟩ | ⟨_, _, -, rfl⟩
  · exact (engineStep_cfg he :)
  · exact (portAccess_cfg hp :)
  · obtain ⟨-, -, ⟨-, rfl⟩ | ⟨-, rfl⟩⟩ := memRead_cases hr <;> rfl
  · obtain ⟨-, -, rfl⟩ := memWrite_cases hw
    rfl
  all_goals rfl

/-! ### Facts the invariant's fields need -/

theorem Memory.keys_below_write {m : Memory} {n a : Nat} (v : Byte) (h : ∀ c ∈ m, c.1 < n) (ha : a < n) :
    ∀ c ∈ m.write a v, c.1 < n := by
  intro c hc
  rcases Memory.mem_of_mem_write hc with hk | hm
  · omega
  · exact h c hm

/-- What `trunc_AW` stores has `AW` bits (R27). -/
theorem truncAw_toNat_lt (aw : Nat) (w : Word) : (truncAw aw w).toNat < 2 ^ aw := by
  simp only [truncAw, BitVec.toNat_ofNat]
  exact Nat.lt_of_le_of_lt (Nat.mod_le _ _) (Nat.mod_lt _ (Nat.two_pow_pos aw))

/-- A selector of 1 to 3 names a curve that is not the identity (R37). -/
theorem curveOf_ne_zero {s : State} (hv : ¬ SelectorInvalid s) (h0 : s.sel ≠ 0) : curveOf s.sel ≠ 0 := by
  have hle : s.sel.toNat ≤ 3 := Nat.not_lt.1 hv
  have hne : s.sel.toNat ≠ 0 := fun e => h0 (BitVec.eq_of_toNat_eq e)
  intro hc
  have hmod : s.sel.toNat % 4 = 0 := by simpa [curveOf] using congrArg BitVec.toNat hc
  omega

/-- A shorter buffer at the same base touches no region that the longer one does not. -/
theorem not_misplaced_of_le {cfg : Config} {b m n : Nat} (hle : m ≤ n) (h : ¬ Misplaced cfg b n) :
    ¬ Misplaced cfg b m := by
  rintro ⟨r, hr, hk, h0, hs, hb, ht⟩
  exact h ⟨r, hr, hk, by omega, hs, by omega, ht⟩

theorem wholeGroups_le (len : Word) : (wholeGroups len).toNat ≤ len.toNat := by
  rw [wholeGroups_toNat]
  omega

/-! ### Updates that keep the invariant -/

namespace Inv

variable {s : State}

/-- The invariant does not speak of these fields. -/
theorem set_unread (h : Inv s) (sel len : Word) (sample result : Byte) (dropped : Bool)
    (unacquired : List Span) (claims : List Claim) (inbox : List Event) (replies : List Reply) :
    Inv { s with sel, len, sample, result, dropped, unacquired, claims, inbox, replies } :=
  { h with }

theorem set_inbox (h : Inv s) (inbox : List Event) : Inv { s with inbox } :=
  h.set_unread _ _ _ _ _ _ _ _ _

theorem drop (h : Inv s) : Inv s.drop := h.set_unread _ _ _ _ true _ _ _ _

theorem reply (h : Inv s) (r : Reply) : Inv (s.reply r) := h.set_unread _ _ _ _ _ _ _ _ _

theorem writeStatus (h : Inv s) (w : Word) : Inv (s.writeStatus w) := by
  unfold State.writeStatus
  split
  · exact h.set_unread _ _ _ _ false _ _ _ _
  · exact h

theorem acquireOn (h : Inv s) (r : Reg) : Inv (s.acquireOn r) := by
  unfold State.acquireOn
  split
  · exact h.set_unread _ _ _ _ _ [] _ _ _
  · exact h

theorem write_base (h : Inv s) (w : Word) : Inv { s with base := truncAw s.cfg.aw w } :=
  { h with baseBelow := truncAw_toNat_lt _ _ }

theorem clearDone (h : Inv s) : Inv s.clearDone := { h with runNotDone := fun _ => rfl }

/-- A report while IDLE, of an offending selector with the maximum 3 (R201). -/
theorem report_invalid (h : Inv s) (hp : s.phase = .idle) {given : Word}
    (hg : maxCurveId.toNat < given.toNat) : Inv (s.report .invalidCurveSelector given maxCurveId) :=
  { h with
    errInvalid := fun _ => ⟨hg, rfl⟩
    errOther := fun hne => absurd rfl hne
    runNotDone := fun hr => by simp [hp] at hr }

/-- A report while IDLE of any other outcome, with ERR_GIVEN and ERR_MAX both 0 (R31, R32). -/
theorem report_other (h : Inv s) (hp : s.phase = .idle) {e : ErrKind} (he : e ≠ .invalidCurveSelector) :
    Inv (s.report e 0 0) :=
  { h with
    errInvalid := fun hi => absurd hi he
    errOther := fun _ => ⟨rfl, rfl⟩
    runNotDone := fun hr => by simp [hp] at hr }

theorem completeOk (h : Inv s) (hp : s.phase = .idle) : Inv s.completeOk :=
  h.report_other hp (e := .ok) nofun

/-- While IDLE nothing is said of a run, so the end of one leaves nothing to show. -/
theorem endRun (h : Inv s) : Inv s.endRun :=
  { h with
    runNotDone := nofun, runSelector := nofun, runInMemory := nofun
    runPlaced := nofun, runMapped := nofun, runUnmapped := nofun }

/-- Acceptance into RUN (R145): the whole groups lie within the buffer that passed the checks, and at
CUR = 0 memory is the snapshot. -/
theorem beginRun (h : Inv s) (hd : s.done = false) (hv : ¬ SelectorInvalid s) (hw : ¬ Wraps s)
    (hm : ¬ BufferMisplaced s) (h0 : s.sel ≠ 0) : Inv s.beginRun :=
  { h with
    snapshotWf := h.memWf
    lbaseBelow := h.baseBelow
    curLeEnd := Nat.zero_le _
    endWhole := by
      rw [State.beginRun_endOff, wholeGroups_toNat]
      exact Nat.mul_mod_right 3 _
    runNotDone := fun _ => hd
    runSelector := fun _ => curveOf_ne_zero hv h0
    runInMemory := fun _ =>
      Nat.le_trans (Nat.add_le_add_left (wholeGroups_le s.len) _) (Nat.not_lt.1 hw)
    runPlaced := fun _ => not_misplaced_of_le (wholeGroups_le s.len) hm
    runMapped := fun _ i hi => absurd hi (Nat.not_lt_zero i)
    runUnmapped := fun _ _ _ _ => rfl }

/-- A write outside the running range keeps what is known of the range's bytes (R74). -/
theorem write_outside (h : Inv s) {a : Nat} (v : Byte) (ha : a < 2 ^ s.cfg.aw)
    (hout : s.phase = .run → ¬ s.runSpan.Holds a) : Inv { s with mem := s.mem.write a v } :=
  have hsame : s.phase = .run → ∀ i, i < s.endOff.toNat →
      (s.mem.write a v).read (s.lbase.toNat + i) = s.mem.read (s.lbase.toNat + i) := fun hp i hi =>
    Memory.read_write_other _ _ fun he => hout hp (by simp only [Span.Holds, State.runSpan]; omega)
  { h with
    memWf := Memory.wf_write a v h.memWf
    memBelow := Memory.keys_below_write v h.memBelow ha
    runMapped := fun hp i hi =>
      (hsame hp i (Nat.lt_of_lt_of_le hi h.curLeEnd)).trans (h.runMapped hp i hi)
    runUnmapped := fun hp i h1 h2 => (hsame hp i h2).trans (h.runUnmapped hp i h1 h2) }

/-- The engine's byte step (R149): the byte at CUR was as at acceptance and is now mapped, the bytes before
and after it are untouched. -/
theorem byteStep (h : Inv s) (hp : s.phase = .run) (hc : s.cur.toNat < s.endOff.toNat)
    (ho : Ordinary s.cfg s.nextAddr) :
    Inv { s with
      mem := s.mem.write s.nextAddr (lut s.lsel (s.mem.read s.nextAddr)), cur := s.cur + 1 } := by
  have hcur : (s.cur + 1).toNat = s.cur.toNat + 1 := by
    have := s.endOff.isLt
    rw [BitVec.toNat_add]
    exact Nat.mod_eq_of_lt (by simp; omega)
  have hother : ∀ v i, i ≠ s.cur.toNat →
      (s.mem.write s.nextAddr v).read (s.lbase.toNat + i) = s.mem.read (s.lbase.toNat + i) :=
    fun v i hi => Memory.read_write_other _ v (by simp only [State.nextAddr]; omega)
  exact { h with
    memWf := Memory.wf_write _ _ h.memWf
    memBelow := Memory.keys_below_write _ h.memBelow ho.1
    curLeEnd := by simp only [hcur]; omega
    runMapped := fun _ i hi => by
      simp only [hcur] at hi ⊢
      by_cases he : i = s.cur.toNat
      · subst he
        exact (Memory.read_write_same _ _ _).trans
          (congrArg _ (h.runUnmapped hp _ (Nat.le_refl _) hc))
      · rw [hother _ i he]
        exact h.runMapped hp i (by omega)
    runUnmapped := fun _ i h1 h2 => by
      simp only [hcur] at h1 h2 ⊢
      rw [hother _ i (by omega)]
      exact h.runUnmapped hp i (by omega) h2 }

/-- Reset writes only bytes that exist: a running APPLY's range ends within memory (R143, R232). -/
theorem keys_resetMemory_below (h : Inv s) (mapped : List Nat) :
    ∀ c ∈ resetMemory mapped s, c.1 < 2 ^ s.cfg.aw := by
  intro c hc
  unfold resetMemory at hc
  split at hc
  · exact h.memBelow c hc
  · next hp =>
    rcases mem_resetBytes hc with hk | hm
    · exact Nat.lt_of_lt_of_le hk (h.runInMemory hp)
    · exact h.memBelow c hm

theorem resetBlock (h : Inv s) (mapped : List Nat) : Inv (resetBlock mapped s) where
  cfgWf := h.cfgWf
  memWf := wf_resetMemory mapped h.memWf
  snapshotWf := Memory.wf_nil
  memBelow := h.keys_resetMemory_below mapped
  baseBelow := Nat.two_pow_pos _
  lbaseBelow := Nat.two_pow_pos _
  curLeEnd := Nat.le_refl _
  endWhole := rfl
  errInvalid := nofun
  errOther := fun _ => ⟨rfl, rfl⟩
  runNotDone := nofun
  runSelector := nofun
  runInMemory := nofun
  runPlaced := nofun
  runMapped := nofun
  runUnmapped := nofun

end Inv

/-! ### Operations that keep the invariant -/

section

variable {s t : State}

theorem engineStep_keeps_inv {admits : Bool} (hs : Inv s) (h : engineStep admits s = .next t) : Inv t := by
  rcases engineStep_cases h with ⟨-, rfl⟩ | ⟨hp, hc, -, -, ho, rfl⟩ | ⟨-, -, rfl⟩ | ⟨-, -, rfl⟩
  · exact hs
  · exact hs.byteStep hp hc ho
  · exact hs.endRun.completeOk rfl
  · exact hs

theorem acceptApply_keeps_inv (hs : Inv s) (hp : s.phase = .idle) (h : acceptApply s = .next t) : Inv t := by
  rcases acceptApply_cases h with ⟨hv, rfl⟩ | ⟨-, -, rfl⟩ | ⟨-, -, -, -, rfl⟩ | ⟨hv, hw, hm, h0, rfl⟩
  · exact hs.clearDone.report_invalid hp hv
  · exact hs.clearDone.report_other hp nofun
  · exact hs.clearDone.completeOk hp
  · exact hs.clearDone.beginRun rfl hv hw hm h0

theorem acceptEval_keeps_inv (hs : Inv s) (hp : s.phase = .idle) (h : acceptEval s = .next t) : Inv t := by
  rcases acceptEval_cases h with ⟨hv, rfl⟩ | ⟨-, rfl⟩
  · exact hs.clearDone.report_invalid hp hv
  · exact (hs.clearDone.completeOk hp).set_unread _ _ _ _ _ _ _ _ _

theorem cmdWrite_keeps_inv {w : Word} (hs : Inv s) (h : cmdWrite w s = .next t) : Inv t := by
  rcases cmdWrite_cases h with ⟨-, rfl⟩ | ⟨hp, -, ha⟩ | ⟨hp, -, he⟩ | ⟨hp, -, rfl⟩
  · exact hs.drop
  · exact acceptApply_keeps_inv hs hp ha
  · exact acceptEval_keeps_inv hs hp he
  · exact hs.clearDone.report_other hp nofun

theorem hostWrite_keeps_inv {r : Reg} {w : Word} (hs : Inv s) (h : hostWrite r w s = .next t) : Inv t := by
  rcases hostWrite_cases h with ⟨-, hc⟩ | ⟨-, rfl⟩ | ⟨-, rfl⟩ | ⟨-, rfl⟩ | ⟨-, rfl⟩ | ⟨-, rfl⟩ | rfl
  · exact cmdWrite_keeps_inv hs hc
  · exact hs.writeStatus w
  · exact hs.set_unread w _ _ _ _ _ _ _ _
  · exact hs.write_base w
  · exact hs.set_unread _ w _ _ _ _ _ _ _
  · exact hs.set_unread _ _ (truncSample w) _ _ _ _ _ _
  · exact hs

theorem portAccess_keeps_inv {bits : Nat} {access : PortAccess} (hs : Inv s)
    (h : portAccess bits access s = .next t) : Inv t := by
  obtain ⟨-, ⟨slot, -, rfl⟩ | ⟨slot, w, -, hw⟩⟩ := portAccess_cases h
  · exact (hs.acquireOn _).reply _
  · exact hostWrite_keeps_inv hs hw

theorem memRead_keeps_inv {agent : Agent} {a : Nat} (hs : Inv s) (h : memRead agent a s = .next t) :
    Inv t := by
  obtain ⟨-, -, ⟨-, rfl⟩ | ⟨-, rfl⟩⟩ := memRead_cases h
  · exact hs.reply _
  · exact hs

theorem memWrite_keeps_inv {agent : Agent} {a : Nat} {v : Byte} (hs : Inv s)
    (h : memWrite agent a v s = .next t) : Inv t := by
  obtain ⟨hr, ho, rfl⟩ := memWrite_cases h
  exact hs.write_outside v ho.1 fun hp hin => hr (.inl (.inl ⟨hp, hin⟩))

theorem step_keeps_inv (hs : Inv s) (h : step s = .next t) : Inv t := by
  have hpop := hs.set_inbox
  rcases step_next_cases h with ⟨_, rest, -, he⟩ | ⟨_, _, rest, -, hp⟩ | ⟨_, _, rest, -, hr⟩ |
    ⟨_, _, _, rest, -, hw⟩ | ⟨mapped, rest, -, rfl⟩ | ⟨_, _, _, rest, -, rfl⟩ | ⟨_, rest, -, rfl⟩
  · exact engineStep_keeps_inv (hpop rest) he
  · exact portAccess_keeps_inv (hpop rest) hp
  · exact memRead_keeps_inv (hpop rest) hr
  · exact memWrite_keeps_inv (hpop rest) hw
  · exact (hpop rest).resetBlock mapped
  · exact (hpop rest).set_unread _ _ _ _ _ _ _ _ _
  · exact (hpop rest).set_unread _ _ _ _ _ _ _ _ _

end

/-! ### The statements -/

/-- Settles O56: each event's operation keeps the invariant, and so does taking the event. -/
theorem stepKeepsTheInvariant : Obligations.StepKeepsTheInvariant :=
  fun _ _ hs h => step_keeps_inv hs h

/-- Settles O36: no operation writes the parameters, and reset starts from those of the state. -/
theorem parametersNeverChange : Obligations.ParametersNeverChange :=
  fun _ _ h => step_cfg h

end Sys2Proof.Machine
end

section
/-! PROOFS. The block's state (10_state.md): what the internal registers can show, which steps change
STATUS.DROPPED, RESULT, PHASE and the latched operands, and what STATUS and the NAME ROM read as. -/

namespace Sys2Proof.Machine

/-! ### The internal registers while IDLE (R37, R43)

No operation reads them while IDLE, so from a state that has forgotten them each gives the outcome it gives
anyhow, but for what is forgotten. -/

/-- LSEL, LBASE, END, CUR and the snapshot forgotten, whatever the phase. -/
def State.forgetEngine (s : State) : State :=
  { s with lsel := 0, lbase := 0, endOff := 0, cur := 0, snapshot := [] }

theorem forgetIdle_of_idle {s : State} (h : s.phase = .idle) : forgetIdle s = s.forgetEngine := if_pos h

theorem forgetIdle_of_run {s : State} (h : s.phase = .run) : forgetIdle s = s :=
  if_neg (by simp [h])

theorem forgetIdle_forgetEngine {s : State} (h : s.phase = .idle) :
    forgetIdle s.forgetEngine = forgetIdle s := by
  rw [forgetIdle_of_idle h]
  exact forgetIdle_of_idle (s := s.forgetEngine) h

/-- An outcome with the next state's engine registers forgotten, should it be IDLE. -/
def forgetOutcome : Host.Outcome State Fault Refusal → Host.Outcome State Fault Refusal
  | .next s => .next (forgetIdle s)
  | .fault p => .fault p
  | .refused p => .refused p

theorem indistinct_iff {o p : Host.Outcome State Fault Refusal} :
    Indistinct o p ↔ forgetOutcome o = forgetOutcome p := by
  cases o <;> cases p <;> simp [Indistinct, forgetOutcome]

theorem forgetOutcome_next_forgetEngine {s : State} (h : s.phase = .idle) :
    forgetOutcome (.next s.forgetEngine) = forgetOutcome (.next s) :=
  congrArg Host.Outcome.next (forgetIdle_forgetEngine h)

/-- While IDLE the operation does not see what LSEL, LBASE, END, CUR and the snapshot hold. -/
def BlindWhileIdle (op : State → Host.Outcome State Fault Refusal) : Prop :=
  ∀ s : State, s.phase = .idle → forgetOutcome (op s.forgetEngine) = forgetOutcome (op s)

/-- An operation that always goes on is blind if what it does commutes with forgetting and it does not
leave IDLE. -/
theorem blind_of_commutes {f : State → State} (hf : ∀ s, f s.forgetEngine = (f s).forgetEngine)
    (hp : ∀ s, s.phase = .idle → (f s).phase = .idle) : BlindWhileIdle fun s => .next (f s) :=
  fun s h => (congrArg (fun u => forgetOutcome (.next u)) (hf s)).trans
    (forgetOutcome_next_forgetEngine (hp s h))

theorem blind_ite {c : State → Prop} [DecidablePred c] {f g : State → Host.Outcome State Fault Refusal}
    (hc : ∀ s, s.phase = .idle → (c s.forgetEngine ↔ c s)) (hf : BlindWhileIdle f)
    (hg : BlindWhileIdle g) : BlindWhileIdle fun s => if c s then f s else g s := by
  intro s hp
  beta_reduce
  by_cases h : c s
  · rw [if_pos h, if_pos ((hc s hp).2 h)]
    exact hf s hp
  · rw [if_neg h, if_neg (mt (hc s hp).1 h)]
    exact hg s hp

theorem blind_acceptApply : BlindWhileIdle acceptApply :=
  blind_ite (fun _ _ => .rfl) (blind_of_commutes (fun _ => rfl) fun _ h => h) <|
  blind_ite (fun _ _ => .rfl) (blind_of_commutes (fun _ => rfl) fun _ h => h) <|
  blind_ite (fun _ _ => .rfl) (fun _ _ => rfl) <|
  blind_ite (fun _ _ => .rfl) (blind_of_commutes (fun _ => rfl) fun _ h => h) fun _ _ => rfl

theorem blind_acceptEval : BlindWhileIdle acceptEval :=
  blind_ite (fun _ _ => .rfl) (blind_of_commutes (fun _ => rfl) fun _ h => h)
    (blind_of_commutes (fun _ => rfl) fun _ h => h)

theorem blind_exec (i : Instr) : BlindWhileIdle (exec i) := by
  intro s hp
  cases i with
  | apply =>
    rw [exec_apply_of_idle hp, exec_apply_of_idle (s := s.forgetEngine) hp]
    exact blind_acceptApply s hp
  | eval =>
    rw [exec_eval_of_idle hp, exec_eval_of_idle (s := s.forgetEngine) hp]
    exact blind_acceptEval s hp

theorem blind_acceptIllegal : BlindWhileIdle acceptIllegal :=
  blind_of_commutes (fun _ => rfl) fun _ h => h

theorem blind_cmdWrite (w : Word) : BlindWhileIdle (cmdWrite w) := by
  intro s hp
  have hp' : s.forgetEngine.phase = .idle := hp
  simp only [cmdWrite, hp, hp']
  split
  · exact blind_exec _ s hp
  · exact blind_acceptIllegal s hp

theorem acquireOn_forgetEngine (r : Reg) (s : State) :
    s.forgetEngine.acquireOn r = (s.acquireOn r).forgetEngine := by
  unfold State.acquireOn
  split
  · next h => rw [if_pos (show r = .status ∧ s.phase = .idle from h)]; rfl
  · next h => rw [if_neg (show ¬ (r = .status ∧ s.phase = .idle) from h)]

theorem writeStatus_forgetEngine (w : Word) (s : State) :
    s.forgetEngine.writeStatus w = (s.writeStatus w).forgetEngine := by
  unfold State.writeStatus
  split <;> rfl

theorem hostRead_forgetEngine (r : Reg) (s : State) : hostRead s.forgetEngine r = hostRead s r := by
  cases r <;> rfl

theorem blind_portRead (slot : BitVec 6) : BlindWhileIdle (portRead slot) :=
  blind_of_commutes (fun s => by rw [acquireOn_forgetEngine, hostRead_forgetEngine]; rfl)
    fun s h => by simpa using h

theorem blind_hostWrite (r : Reg) (w : Word) : BlindWhileIdle (hostWrite r w) := by
  cases r with
  | cmd => exact blind_cmdWrite w
  | status => exact blind_of_commutes (writeStatus_forgetEngine w) fun s h => by simpa using h
  | _ => exact blind_of_commutes (fun _ => rfl) fun _ h => h

theorem blind_portAccess (bits : Nat) (access : PortAccess) : BlindWhileIdle (portAccess bits access) := by
  refine blind_ite (fun _ _ => .rfl) (fun _ _ => rfl) ?_
  cases access with
  | read slot => exact blind_portRead slot
  | write slot w => exact blind_hostWrite (regAt slot) w

theorem races_forgetEngine {s : State} (agent : Agent) (a : Nat) (h : s.phase = .idle) :
    Races agent s.forgetEngine a ↔ Races agent s a := by
  have hp : s.phase ≠ .run := by simp [h]
  exact or_congr (or_congr (iff_of_false (fun hr => hp hr.1) fun hr => hp hr.1) .rfl) .rfl

theorem blind_guardAccess (agent : Agent) (a : Nat) {f : State → State}
    (hf : BlindWhileIdle fun s => .next (f s)) : BlindWhileIdle fun s => guardAccess agent a s (f s) :=
  blind_ite (fun _ _ => .rfl) (fun _ _ => rfl) <|
  blind_ite (fun _ h => races_forgetEngine agent a h) (fun _ _ => rfl) <|
  blind_ite (fun _ _ => .rfl) hf fun _ _ => rfl

theorem blind_memRead (agent : Agent) (a : Nat) : BlindWhileIdle (memRead agent a) := by
  cases agent <;> exact blind_guardAccess _ a (blind_of_commutes (fun _ => rfl) fun _ h => h)

theorem blind_memWrite (agent : Agent) (a : Nat) (v : Byte) : BlindWhileIdle (memWrite agent a v) :=
  blind_guardAccess agent a (blind_of_commutes (fun _ => rfl) fun _ h => h)

theorem blind_engineStep (admits : Bool) : BlindWhileIdle (engineStep admits) := by
  intro s hp
  rw [engineStep_of_idle admits hp, engineStep_of_idle (s := s.forgetEngine) admits hp]
  exact forgetOutcome_next_forgetEngine hp

/-- Only an abandoned APPLY makes reset look at the engine's registers (R231, R232). -/
theorem resetBlock_forgetEngine {s : State} (mapped : List Nat) (h : s.phase = .idle) :
    resetBlock mapped s.forgetEngine = resetBlock mapped s := by
  simp [resetBlock, resetMemory, State.forgetEngine, h]

theorem blind_runEvent (e : Event) : BlindWhileIdle (runEvent e) := by
  cases e with
  | port bits access => exact blind_portAccess bits access
  | memRead agent a => exact blind_memRead agent a
  | memWrite agent a v => exact blind_memWrite agent a v
  | engine admits => exact blind_engineStep admits
  | reset mapped =>
    exact fun s h => congrArg (fun u => forgetOutcome (.next u)) (resetBlock_forgetEngine mapped h)
  | otherRun id base size => exact blind_of_commutes (fun _ => rfl) fun _ h => h
  | otherEnd id => exact blind_of_commutes (fun _ => rfl) fun _ h => h

theorem blind_step : BlindWhileIdle step := by
  intro s hp
  cases hi : s.inbox with
  | nil =>
    rw [step_of_nil hi, step_of_nil (s := s.forgetEngine) hi]
    exact blind_engineStep true s hp
  | cons e rest =>
    rw [step_of_cons hi, step_of_cons (s := s.forgetEngine) hi]
    exact blind_runEvent e { s with inbox := rest } hp

theorem forgetOutcome_step_forgetIdle (s : State) :
    forgetOutcome (step (forgetIdle s)) = forgetOutcome (step s) := by
  cases hp : s.phase with
  | idle => rw [forgetIdle_of_idle hp]; exact blind_step s hp
  | run => rw [forgetIdle_of_run hp]

theorem forgetOutcome_step_congr {s t : State} (h : forgetIdle s = forgetIdle t) :
    forgetOutcome (step s) = forgetOutcome (step t) := by
  rw [← forgetOutcome_step_forgetIdle s, h, forgetOutcome_step_forgetIdle t]

theorem forgetOutcome_runFor_congr {s t : State} (k : Nat) (h : forgetIdle s = forgetIdle t) :
    forgetOutcome (runFor k s) = forgetOutcome (runFor k t) := by
  induction k generalizing s t with
  | zero => exact congrArg Host.Outcome.next h
  | succ k ih =>
    have hstep := forgetOutcome_step_congr h
    rw [runFor_succ, runFor_succ]
    generalize step s = o, step t = p at hstep
    match o, p, hstep with
    | .next _, .next _, huv => exact ih (Host.Outcome.next.inj huv)
    | .fault _, .fault _, hpq => exact hpq
    | .refused _, .refused _, hpq => exact hpq

/-- Settles O58: by induction on the number of steps, each of which is blind while IDLE. -/
theorem idleEngineRegistersAreUnobservable : Obligations.IdleEngineRegistersAreUnobservable :=
  fun _ _ k h => indistinct_iff.2 (forgetOutcome_runFor_congr k h)

/-! ### The words of the two commands (R92) -/

theorem mbzOf_append_opcodeOf (w : Word) : mbzOf w ++ opcodeOf w = w := by
  simp only [mbzOf, opcodeOf, BitVec.extractLsb'_append_extractLsb'_eq_extractLsb']
  exact BitVec.extractLsb'_eq_self

/-- Only the word of a command decodes to it. -/
theorem eq_encode_of_decode {w : Word} {i : Instr} (h : decode w = .ok i) : w = encode i := by
  have hfields : mbzOf w = 0#24 ∧ opcodeOf w = opcodeFor i := by
    unfold decode at h
    split at h
    · cases h
    next hm =>
    split at h
    · next ho => cases h; exact ⟨not_not.1 hm, ho⟩
    split at h
    · next ho => cases h; exact ⟨not_not.1 hm, ho⟩
    · cases h
  rw [← mbzOf_append_opcodeOf w, hfields.1, hfields.2, encode]

/-! ### What a step changes of the block's state

A step is the engine's, a CMD write, a STATUS write or a reset, or it leaves the report, RESULT, PHASE and the
internal registers as they are. The claims on single fields look at the first four. -/

/-- From `s` to `t` only operand registers, buffer memory and what is not the block's may differ. -/
structure KeepsReportAndEngine (s t : State) : Prop where
  result : t.result = s.result := by rfl
  errGiven : t.errGiven = s.errGiven := by rfl
  errMax : t.errMax = s.errMax := by rfl
  done : t.done = s.done := by rfl
  err : t.err = s.err := by rfl
  dropped : t.dropped = s.dropped := by rfl
  phase : t.phase = s.phase := by rfl
  lsel : t.lsel = s.lsel := by rfl
  lbase : t.lbase = s.lbase := by rfl
  endOff : t.endOff = s.endOff := by rfl
  cur : t.cur = s.cur := by rfl
  snapshot : t.snapshot = s.snapshot := by rfl

theorem acquireOn_reply_keepsReportAndEngine (s : State) (r : Reg) (p : Reply) :
    KeepsReportAndEngine s ((s.acquireOn r).reply p) := by
  unfold State.acquireOn
  split <;> exact {}

theorem memRead_keepsReportAndEngine {agent : Agent} {a : Nat} {s t : State}
    (h : memRead agent a s = .next t) : KeepsReportAndEngine s t := by
  obtain ⟨-, -, ⟨-, rfl⟩ | ⟨-, rfl⟩⟩ := memRead_cases h <;> exact {}

theorem memWrite_keepsReportAndEngine {agent : Agent} {a : Nat} {v : Byte} {s t : State}
    (h : memWrite agent a v s = .next t) : KeepsReportAndEngine s t := by
  obtain ⟨-, -, rfl⟩ := memWrite_cases h
  exact {}

theorem portAccess_changes {bits : Nat} {access : PortAccess} {s t : State}
    (h : portAccess bits access s = .next t) :
    KeepsReportAndEngine s t ∨
    (∃ w, Event.port bits access = wr 0x00 w ∧ cmdWrite w s = .next t) ∨
    (∃ w, Event.port bits access = wr 0x04 w ∧ t = s.writeStatus w) := by
  obtain ⟨rfl, ⟨_, rfl, rfl⟩ | ⟨w, rfl, hc⟩ | ⟨w, rfl, ht⟩ | ⟨_, _, rfl, _, _, _, _, _, _, rfl⟩⟩ :=
    portAccess_next_cases h
  · exact .inl (acquireOn_reply_keepsReportAndEngine s _ _)
  · exact .inr (.inl ⟨w, rfl, hc⟩)
  · exact .inr (.inr ⟨w, rfl, ht⟩)
  · exact .inl {}

theorem step_changes {s t : State} (h : step s = .next t) :
    KeepsReportAndEngine s t ∨
    (∃ admits rest, EngineTurn s admits rest ∧ engineStep admits { s with inbox := rest } = .next t) ∨
    (∃ w rest, s.inbox = wr 0x00 w :: rest ∧ cmdWrite w { s with inbox := rest } = .next t) ∨
    (∃ w rest, s.inbox = wr 0x04 w :: rest ∧ t = { s with inbox := rest }.writeStatus w) ∨
    ∃ mapped rest, s.inbox = .reset mapped :: rest ∧ t = resetBlock mapped { s with inbox := rest } := by
  rcases step_next_cases h with he | ⟨_, _, rest, hi, hp⟩ | ⟨_, _, _, -, hr⟩ | ⟨_, _, _, _, -, hw⟩ | hr |
    ⟨_, _, _, _, -, rfl⟩ | ⟨_, _, -, rfl⟩
  · exact .inr (.inl he)
  · rcases portAccess_changes hp with hk | ⟨w, he, hc⟩ | ⟨w, he, ht⟩
    · exact .inl { hk with }
    · exact .inr (.inr (.inl ⟨w, rest, he ▸ hi, hc⟩))
    · exact .inr (.inr (.inr (.inl ⟨w, rest, he ▸ hi, ht⟩)))
  · exact .inl { memRead_keepsReportAndEngine hr with }
  · exact .inl { memWrite_keepsReportAndEngine hw with }
  · exact .inr (.inr (.inr (.inr hr)))
  · exact .inl {}
  · exact .inl {}

/-! ### DROPPED and RESULT (R25, R30) -/

theorem engineStep_keeps_dropped_result {admits : Bool} {s t : State} (h : engineStep admits s = .next t) :
    t.dropped = s.dropped ∧ t.result = s.result := by
  rcases engineStep_cases h with ⟨-, rfl⟩ | ⟨-, -, -, -, -, rfl⟩ | ⟨-, -, rfl⟩ | ⟨-, -, rfl⟩ <;> exact ⟨rfl, rfl⟩

theorem acceptApply_keeps_dropped_result {s t : State} (h : acceptApply s = .next t) :
    t.dropped = s.dropped ∧ t.result = s.result := by
  rcases acceptApply_cases h with ⟨-, rfl⟩ | ⟨-, -, rfl⟩ | ⟨-, -, -, -, rfl⟩ | ⟨-, -, -, -, rfl⟩ <;>
    exact ⟨rfl, rfl⟩

theorem acceptEval_keeps_dropped {s t : State} (h : acceptEval s = .next t) : t.dropped = s.dropped := by
  rcases acceptEval_cases h with ⟨-, rfl⟩ | ⟨-, rfl⟩ <;> rfl

/-- A CMD write that is accepted leaves DROPPED. -/
theorem run_of_cmdWrite_changes_dropped {s t : State} {w : Word} (h : cmdWrite w s = .next t)
    (hd : t.dropped ≠ s.dropped) : s.phase = .run := by
  rcases cmdWrite_cases h with ⟨hp, -⟩ | ⟨-, -, ha⟩ | ⟨-, -, he⟩ | ⟨-, -, rfl⟩
  · exact hp
  · exact absurd (acceptApply_keeps_dropped_result ha).1 hd
  · exact absurd (acceptEval_keeps_dropped he) hd
  · exact absurd rfl hd

theorem eval_of_cmdWrite_changes_result {s t : State} {w : Word} (h : cmdWrite w s = .next t)
    (hr : t.result ≠ s.result) : w = encode .eval ∧ s.phase = .idle ∧ ¬ SelectorInvalid s := by
  rcases cmdWrite_cases h with ⟨-, rfl⟩ | ⟨-, -, ha⟩ | ⟨hp, hw, he⟩ | ⟨-, -, rfl⟩
  · exact absurd rfl hr
  · exact absurd (acceptApply_keeps_dropped_result ha).2 hr
  · rcases acceptEval_cases he with ⟨-, rfl⟩ | ⟨hv, -⟩
    · exact absurd rfl hr
    · exact ⟨eq_encode_of_decode hw, hp, hv⟩
  · exact absurd rfl hr

theorem step_cmdWrite {s : State} {w : Word} {rest : List Event} (h : s.inbox = wr 0x00 w :: rest) :
    step s = cmdWrite w { s with inbox := rest } := by
  rw [step_of_cons h, runEvent_wr]; rfl

theorem step_statusWrite {s : State} {w : Word} {rest : List Event} (h : s.inbox = wr 0x04 w :: rest) :
    step s = .next ({ s with inbox := rest }.writeStatus w) := by
  rw [step_of_cons h, runEvent_wr]; rfl

theorem writeStatus_eq (s : State) (w : Word) :
    s.writeStatus w = { s with dropped := if w.toNat / 256 % 2 = 1 then false else s.dropped } := by
  simp only [State.writeStatus, getLsbD_eight, decide_eq_true_eq]
  split <;> rfl

/-- Settles O32: the first three clauses run the step; of the steps `step_changes` names, only a CMD write while
RUN, a STATUS write with bit 8 and a reset reach DROPPED. -/
theorem droppedIsSticky : Obligations.DroppedIsSticky := by
  intro s t h
  refine ⟨fun w rest hi hp => ?_, fun w rest hi => ?_, fun mapped rest hi => ?_, fun hd => ?_⟩
  · rw [step_cmdWrite hi, cmdWrite_of_run (s := { s with inbox := rest }) w hp] at h
    exact (Host.Outcome.next.inj h).symm
  · rw [step_statusWrite hi, writeStatus_eq] at h
    exact (Host.Outcome.next.inj h).symm
  · rw [step_of_cons hi] at h
    cases h
    rfl
  · rcases step_changes h with hk | ⟨_, _, -, he⟩ | ⟨w, rest, hi, hc⟩ | ⟨w, rest, hi, rfl⟩ |
      ⟨mapped, rest, hi, -⟩
    · exact absurd hk.dropped hd
    · exact absurd (engineStep_keeps_dropped_result he).1 hd
    · exact .inl ⟨w, rest, hi, (run_of_cmdWrite_changes_dropped hc hd :)⟩
    · refine .inr (.inl ⟨w, rest, hi, ?_⟩)
      by_contra hb
      exact hd (by rw [writeStatus_eq, if_neg hb])
    · exact .inr (.inr ⟨mapped, rest, hi⟩)

/-- Settles O33: of the steps `step_changes` names, only an accepted EVAL and a reset reach RESULT. -/
theorem resultChangesOnlyByEval : Obligations.ResultChangesOnlyByEval := by
  intro s t h hr
  rcases step_changes h with hk | ⟨_, _, -, he⟩ | ⟨w, rest, hi, hc⟩ | ⟨w, rest, -, rfl⟩ |
    ⟨mapped, rest, hi, -⟩
  · exact absurd hk.result hr
  · exact absurd (engineStep_keeps_dropped_result he).2 hr
  · obtain ⟨rfl, hp, hv⟩ := eval_of_cmdWrite_changes_result hc hr
    exact .inl ⟨rest, hi, hp, Nat.not_lt.1 hv⟩
  · exact absurd (State.writeStatus_result _ w) hr
  · exact .inr ⟨mapped, rest, hi⟩

/-! ### PHASE (R38, R236) -/

/-- A CMD write leaves PHASE, unless it is that of an APPLY that begins to run. -/
theorem cmdWrite_phase {s t : State} {w : Word} (h : cmdWrite w s = .next t) :
    t.phase = s.phase ∨
    s.phase = .idle ∧ w = encode .apply ∧ ¬ SelectorInvalid s ∧ ¬ Wraps s ∧ s.sel ≠ 0 := by
  rcases cmdWrite_cases h with ⟨-, rfl⟩ | ⟨hp, hw, ha⟩ | ⟨-, -, he⟩ | ⟨-, -, rfl⟩
  · exact .inl rfl
  · rcases acceptApply_cases ha with ⟨-, rfl⟩ | ⟨-, -, rfl⟩ | ⟨-, -, -, -, rfl⟩ | ⟨hv, hl, -, h0, -⟩
    · exact .inl rfl
    · exact .inl rfl
    · exact .inl rfl
    · exact .inr ⟨hp, eq_encode_of_decode hw, hv, hl, h0⟩
  · rcases acceptEval_cases he with ⟨-, rfl⟩ | ⟨-, rfl⟩ <;> exact .inl rfl
  · exact .inl rfl

theorem engineStep_phase {admits : Bool} {s t : State} (h : engineStep admits s = .next t) :
    t.phase = s.phase ∨ s.phase = .run ∧ t.phase = .idle ∧ s.cur = s.endOff := by
  rcases engineStep_cases h with ⟨-, rfl⟩ | ⟨-, -, -, -, -, rfl⟩ | ⟨hp, hc, rfl⟩ | ⟨-, -, rfl⟩
  · exact .inl rfl
  · exact .inl rfl
  · exact .inr ⟨hp, rfl, hc⟩
  · exact .inl rfl

/-- What any step does to PHASE. -/
theorem step_phase {s t : State} (h : step s = .next t) :
    t.phase = s.phase ∨
    (s.phase = .idle ∧ ∃ rest, s.inbox = wr 0x00 (encode .apply) :: rest ∧
      ¬ SelectorInvalid s ∧ ¬ Wraps s ∧ s.sel ≠ 0) ∨
    (t.phase = .idle ∧ ∃ admits rest, EngineTurn s admits rest ∧ s.cur = s.endOff) ∨
    (t.phase = .idle ∧ ∃ mapped rest, s.inbox = .reset mapped :: rest) := by
  rcases step_changes h with hk | ⟨admits, rest, hturn, he⟩ | ⟨w, rest, hi, hc⟩ | ⟨w, rest, -, rfl⟩ |
    ⟨mapped, rest, hi, rfl⟩
  · exact .inl hk.phase
  · rcases engineStep_phase he with hp | ⟨-, hp, hc⟩
    · exact .inl hp
    · exact .inr (.inr (.inl ⟨hp, admits, rest, hturn, hc⟩))
  · rcases cmdWrite_phase hc with hp | ⟨hp, rfl, hv⟩
    · exact .inl hp
    · exact .inr (.inl ⟨hp, rest, hi, hv⟩)
  · exact .inl (State.writeStatus_phase _ w)
  · exact .inr (.inr (.inr ⟨rfl, mapped, rest, hi⟩))

/-- Settles O34: of the cases of `step_phase`, only an accepted APPLY can end in RUN from IDLE, and only the
engine's completion and a reset in IDLE from RUN. -/
theorem phaseChanges : Obligations.PhaseChanges := by
  intro s t h
  constructor
  · intro hs ht
    rcases step_phase h with hp | ⟨-, rest, hi, hv, hw, h0⟩ | ⟨hp, -⟩ | ⟨hp, -⟩
    · simp [hs, ht] at hp
    · exact ⟨rest, hi, Nat.pos_of_ne_zero fun e => h0 (BitVec.eq_of_toNat_eq e), Nat.not_lt.1 hv,
        Nat.not_lt.1 hw⟩
    · simp [ht] at hp
    · simp [ht] at hp
  · intro hs ht
    rcases step_phase h with hp | ⟨hp, -⟩ | ⟨-, hend⟩ | ⟨-, hreset⟩
    · simp [hs, ht] at hp
    · simp [hs] at hp
    · exact .inl hend
    · exact .inr hreset

/-! ### The latched operands (R39 to R41, R150) -/

/-- Settles O35: while RUN a CMD write is dropped, so only the engine's byte step moves CUR; the steps that write
the other registers end in IDLE. -/
theorem latchedOperandsAreFixed : Obligations.LatchedOperandsAreFixed := by
  intro s t h hs ht
  rcases step_changes h with hk | ⟨admits, rest, hturn, he⟩ | ⟨w, rest, -, hc⟩ | ⟨w, rest, -, rfl⟩ |
    ⟨mapped, rest, -, rfl⟩
  · exact ⟨hk.lsel, hk.lbase, hk.endOff, hk.snapshot, .inl hk.cur⟩
  · rcases engineStep_cases he with ⟨-, rfl⟩ | ⟨-, hlt, rfl, -, -, rfl⟩ | ⟨-, -, rfl⟩ | ⟨-, -, rfl⟩
    · exact ⟨rfl, rfl, rfl, rfl, .inl rfl⟩
    · exact ⟨rfl, rfl, rfl, rfl, .inr ⟨rfl, hlt, rest, hturn⟩⟩
    · cases ht
    · exact ⟨rfl, rfl, rfl, rfl, .inl rfl⟩
  · rw [cmdWrite_of_run (s := { s with inbox := rest }) w hs] at hc
    cases hc
    exact ⟨rfl, rfl, rfl, rfl, .inl rfl⟩
  · simp
  · cases ht

/-! ### STATUS (R23, R24) -/

/-- The fields of a word add up, since they do not overlap. -/
theorem toNat_append_eq_add {m n : Nat} (x : BitVec m) (y : BitVec n) :
    (x ++ y).toNat = x.toNat * 2 ^ n + y.toNat := by
  rw [BitVec.toNat_append, ← Nat.shiftLeft_add_eq_or_of_lt y.isLt, Nat.shiftLeft_eq]

theorem statusWord_toNat (s : State) : s.statusWord.toNat =
    s.busy.toNat + 2 * s.done.toNat + 16 * s.err.code.toNat + 256 * s.dropped.toNat := by
  simp only [State.statusWord, toNat_append_eq_add, BitVec.toNat_ofBool, BitVec.toNat_ofNat]
  omega

/-- Settles O27, field by field. -/
theorem statusFields : Obligations.StatusFields := by
  intro s
  rw [statusWord_toNat]
  refine congrArg₂ (· + ·) (congrArg₂ (· + ·) (congrArg₂ (· + ·) ?busy ?done) (congrArg (16 * ·) ?err))
    ?dropped
  case busy => unfold State.busy; cases s.phase <;> rfl
  case done => cases s.done <;> rfl
  case err => cases s.err <;> rfl
  case dropped => cases s.dropped <;> rfl

/-! ### The NAME ROM (R34) -/

theorem regAt_name {j : Nat} (h : j < 16) : regAt (slotOf (0x40 + 4 * j)) = .name (BitVec.ofNat 4 j) := by
  revert j; decide

theorem hostRead_name {j : Nat} (h : j < 16) (s : State) :
    hostRead s (regAt (slotOf (0x40 + 4 * j))) = nameRom.getD j 0 := by
  rw [regAt_name h, hostRead, BitVec.toNat_ofNat, Nat.mod_eq_of_lt h]

/-- The names of 93_implementation_defined.md 3. -/
def registryNames : List (List Char) :=
  [['n', 'o', 'n', 'e'],
   ['l', 'i', 'g', 'h', 't', ' ', 's', 'h', 'a', 'd', 'e', 's'],
   ['m', 'i', 'd', ' ', 's', 'h', 'a', 'd', 'e', 's'],
   ['d', 'a', 'r', 'k', ' ', 's', 'h', 'a', 'd', 'e', 's']]

theorem nameRom_characters : ∀ c < 4, ∀ k < 16,
    (nameRom.getD (4 * c + k / 4) 0).toNat / 2 ^ (8 * (k % 4)) % 256 =
      ((registryNames.getD c []).map Char.toNat).getD k 0 := by
  decide

/-- Settles O28: the address picks word `4 * c + k / 4` of the ROM, whatever the state. -/
theorem nameRomHoldsTheNames : Obligations.NameRomHoldsTheNames := by
  intro c k hc hk s
  have hoff : 0x40 + 16 * c + 4 * (k / 4) = 0x40 + 4 * (4 * c + k / 4) := by omega
  rw [hoff, hostRead_name (by omega)]
  exact nameRom_characters c hc k hk

end Sys2Proof.Machine
end

section
/-! PROOFS. Buffer memory (20_memory.md): where a buffer may lie, what an access of another agent does, the
territories of other MTCs, and which steps reach memory. -/

namespace Sys2Proof.Machine

/-! ### The placement of a buffer (R80) -/

/-- A region overlaps a range exactly when some byte is in both. -/
theorem overlaps_iff {r : Region} {b n : Nat} :
    Overlaps r b n ↔ ∃ a, b ≤ a ∧ a < b + n ∧ Contains r a := by
  constructor
  · rintro ⟨hn, hs, hlo, hhi⟩
    exact ⟨max r.base b, by omega, by omega, by omega, by omega⟩
  · rintro ⟨a, hlo, hhi, hr⟩
    omega

theorem misplaced_iff {cfg : Config} {b n : Nat} :
    Misplaced cfg b n ↔
      ∃ a, b ≤ a ∧ a < b + n ∧ ∃ r ∈ cfg.memMap, r.kind ≠ .hole ∧ Contains r a := by
  constructor
  · rintro ⟨r, hr, hk, ho⟩
    obtain ⟨a, hlo, hhi, hc⟩ := overlaps_iff.1 ho
    exact ⟨a, hlo, hhi, r, hr, hk, hc⟩
  · rintro ⟨a, hlo, hhi, r, hr, hk, hc⟩
    exact ⟨r, hr, hk, overlaps_iff.2 ⟨a, hlo, hhi, hc⟩⟩

theorem acceptApply_eq_bufferPlacement_iff {s : State} :
    acceptApply s = .fault .bufferPlacement ↔
      ¬ SelectorInvalid s ∧ ¬ Wraps s ∧ BufferMisplaced s := by
  refine ⟨fun h => ?_, fun ⟨hv, hw, hm⟩ => acceptApply_of_misplaced hv hw hm⟩
  unfold acceptApply at h
  split at h
  · cases h
  next hv =>
  split at h
  · cases h
  next hw =>
  split at h
  · next hm => exact ⟨hv, hw, hm⟩
  split at h <;> cases h

/-- Settles O16: the fault is the third check of acceptance, and to overlap a region is to share a byte. -/
theorem applyRefusesAMisplacedBuffer : Obligations.ApplyRefusesAMisplacedBuffer := by
  intro s hp
  rw [exec_apply_of_idle hp, acceptApply_eq_bufferPlacement_iff, BufferMisplaced, misplaced_iff,
    Nat.not_lt, Nat.not_lt]
  rfl

/-! ### Accesses of the other agents (R60, R74, R75) -/

/-- The host port is 32 bits wide (R64). -/
theorem portAccess_of_width {bits : Nat} (access : PortAccess) (s : State) (h : bits ≠ 32) :
    portAccess bits access s = .refused (.access bits access) := if_pos h

/-- Settles O31: the port tests the width before it looks at the access. -/
theorem otherWidthsAreRefused : Obligations.OtherWidthsAreRefused := by
  intro s bits access rest hi hb
  rw [step_of_cons hi]
  exact portAccess_of_width access _ hb

theorem guardAccess_of_absent {agent : Agent} {a : Nat} {s d : State} (h : 2 ^ s.cfg.aw ≤ a) :
    guardAccess agent a s d = .fault (.noSuchAddress a) := if_pos h

theorem guardAccess_of_region {agent : Agent} {a : Nat} {s d : State} (ha : a < 2 ^ s.cfg.aw)
    (hr : ¬ Races agent s a) (hm : ∃ r ∈ s.cfg.memMap, Contains r a) :
    guardAccess agent a s d = .refused (.platformAccess agent a) := by
  obtain ⟨r, hmem, hc⟩ := hm
  unfold guardAccess
  rw [if_neg (Nat.not_le.2 ha), if_neg hr, if_neg fun ho => ho.2 r hmem hc]

section

variable {s : State} {agent : Agent} {a : Nat} {v : Byte} {rest : List Event}

/-- A read and a write pass the same guard; they differ in what they do when it lets them through. -/
theorem step_access_eq_guardAccess
    (hi : s.inbox = .memRead agent a :: rest ∨ s.inbox = .memWrite agent a v :: rest) :
    ∃ d, step s = guardAccess agent a { s with inbox := rest } d := by
  rcases hi with hi | hi <;> rw [step_of_cons hi]
  · cases agent <;> exact ⟨_, rfl⟩
  · exact ⟨_, rfl⟩

theorem step_access_of_races
    (hi : s.inbox = .memRead agent a :: rest ∨ s.inbox = .memWrite agent a v :: rest)
    (ha : a < 2 ^ s.cfg.aw) (hr : Races agent s a) : step s = .fault (.bufferRace a) := by
  obtain ⟨d, hd⟩ := step_access_eq_guardAccess hi
  rw [hd]
  exact guardAccess_of_races ha hr

theorem step_hostRead_of_open (ho : Ordinary s.cfg a) (hr : ¬ Races .host s a) :
    step { s with inbox := .memRead .host a :: rest } =
      .next { s with inbox := rest, replies := .byte a (s.mem.read a) :: s.replies } :=
  guardAccess_of_open (s := { s with inbox := rest }) ho hr

theorem step_otherRead_of_open (hh : agent ≠ .host) (ho : Ordinary s.cfg a) (hr : ¬ Races agent s a) :
    step { s with inbox := .memRead agent a :: rest } = .next { s with inbox := rest } := by
  cases agent with
  | host => exact absurd rfl hh
  | busMaster => exact guardAccess_of_open (s := { s with inbox := rest }) ho hr
  | mtc id => exact guardAccess_of_open (s := { s with inbox := rest }) ho hr

theorem step_memWrite_of_open (v : Byte) (ho : Ordinary s.cfg a) (hr : ¬ Races agent s a) :
    ∃ m : Memory, step { s with inbox := .memWrite agent a v :: rest } =
        .next { s with inbox := rest, mem := m } ∧
      m.read a = v ∧ ∀ b, b ≠ a → m.read b = s.mem.read b :=
  ⟨s.mem.write a v, guardAccess_of_open (s := { s with inbox := rest }) ho hr,
    Memory.read_write_same _ _ _, fun _ hb => Memory.read_write_other _ v hb⟩

end

theorem Span.not_holds_iff {p : Span} {a : Nat} :
    ¬ p.Holds a ↔ a < p.base ∨ p.base + p.size ≤ a := by
  simp only [Span.Holds]
  omega

/-- A byte outside every closed range is open to every agent. -/
theorem not_races_of_outside {s : State} {a : Nat}
    (hrun : s.phase = .run → a < s.lbase.toNat ∨ s.lbase.toNat + s.endOff.toNat ≤ a)
    (hun : ∀ p ∈ s.unacquired, a < p.base ∨ p.base + p.size ≤ a)
    (hcl : ∀ c ∈ s.claims, a < c.span.base ∨ c.span.base + c.span.size ≤ a) (agent : Agent) :
    ¬ Races agent s a := by
  rintro ((⟨hp, hin⟩ | ⟨p, hp, hin⟩) | ⟨c, hc, -, hin⟩)
  · exact (Span.not_holds_iff (p := s.runSpan)).2 (hrun hp) hin
  · exact Span.not_holds_iff.2 (hun p hp) hin
  · exact Span.not_holds_iff.2 (hcl c hc) hin

/-- Settles O38: the byte is in the running range, so every agent's access races. -/
theorem racingAccessFaults : Obligations.RacingAccessFaults :=
  fun _ _ _ _ _ hp hlo hhi ha hi => step_access_of_races hi ha (.inl (.inl ⟨hp, hlo, hhi⟩))

/-- Settles O39: no agent races at the byte, so the guard lets each access through. -/
theorem openBytesAreFreeToUse : Obligations.OpenBytesAreFreeToUse := by
  intro s agent a v rest ho hrun hun hcl
  have hopen := not_races_of_outside hrun hun hcl
  exact ⟨step_hostRead_of_open ho (hopen .host),
    fun hh => step_otherRead_of_open hh ho (hopen agent), step_memWrite_of_open v ho (hopen agent)⟩

/-- Settles O44, by the first and the last test of the guard. -/
theorem accessesOutsideMemoryStop : Obligations.AccessesOutsideMemoryStop := by
  intro s agent a v rest hi
  obtain ⟨d, hd⟩ := step_access_eq_guardAccess hi
  rw [hd]
  exact ⟨fun ha => guardAccess_of_absent ha, fun ha hr hm => guardAccess_of_region ha hr hm⟩

/-! ### The host's acquire (R73, R76) -/

theorem acquireOn_status_of_idle {s : State} (h : s.phase = .idle) :
    s.acquireOn .status = { s with unacquired := [] } := if_pos ⟨rfl, h⟩

theorem step_statusRead_of_idle {s : State} (rest : List Event) (h : s.phase = .idle) :
    step { s with inbox := rd 0x04 :: rest } =
      .next { s with
        inbox := rest, unacquired := [], replies := .reg (slotOf 0x04) s.statusWord :: s.replies } := by
  have hacq := acquireOn_status_of_idle (s := { s with inbox := rest }) h
  rw [step_with_event, runEvent_rd, portRead, show regAt (slotOf 0x04) = .status from rfl, hacq]
  rfl

/-- While IDLE with every end seen, only a territory closes a byte to the host. -/
theorem not_races_of_acquired {s : State} {a : Nat} {agent : Agent} (hp : s.phase = .idle)
    (hun : s.unacquired = []) (hf : ¬ Foreign s a) : ¬ Races agent s a := by
  rintro ((⟨hr, -⟩ | ⟨p, hm, -⟩) | ⟨c, hc, -, hin⟩)
  · simp [hp] at hr
  · simp [hun] at hm
  · exact hf ⟨c, hc, hin⟩

/-- Settles O43: the STATUS read leaves no range closed, so the read after it passes the guard. -/
theorem statusReadOpensTheBuffer : Obligations.StatusReadOpensTheBuffer := by
  intro s a rest hp ho hf
  refine ⟨_, (runFor_of_next 1 (step_statusRead_of_idle _ hp)).trans <|
    runFor_of_next 0 (step_hostRead_of_open (s := { s with
      unacquired := [], replies := .reg (slotOf 0x04) s.statusWord :: s.replies }) ho
      (not_races_of_acquired hp rfl hf)), rfl, rfl⟩

/-! ### The territories of other MTCs (R81) -/

theorem Agent.owns_eq_false_iff {agent : Agent} {id : Nat} :
    agent.owns id = false ↔ agent ≠ .mtc id := by
  cases agent <;> simp [Agent.owns]

theorem engineStep_of_foreign {s : State} (admits : Bool) (hp : s.phase = .run)
    (hc : s.cur.toNat < s.endOff.toNat) (hf : Foreign s s.nextAddr) :
    engineStep admits s = .fault (.bufferRace s.nextAddr) := by
  simp only [engineStep, hp]
  rw [if_pos hc, byteStep, if_pos hf]

/-- In its own territory an MTC races only with this block. -/
theorem not_races_of_owner {s : State} {a id : Nat} (hex : ¬ Exclusive s a)
    (hown : ∀ d ∈ s.claims, d.span.Holds a → d.owner = id) : ¬ Races (.mtc id) s a := by
  rintro (he | ⟨d, hd, ho, hin⟩)
  · exact hex he
  · exact Agent.owns_eq_false_iff.1 ho (congrArg Agent.mtc (hown d hd hin).symm)

/-- Settles O41: the engine's byte is foreign, another agent's access races, and the owner's does not. -/
theorem foreignTerritoryIsClosed : Obligations.ForeignTerritoryIsClosed := by
  intro s c a v rest hc hin
  refine ⟨fun admits hturn hp hlt ha => ?_, fun agent hne ha hi => ?_, fun ho hex hown => ?_⟩
  · subst ha
    rw [step_of_engineTurn hturn]
    exact engineStep_of_foreign (s := { s with inbox := rest }) admits hp hlt ⟨c, hc, hin⟩
  · exact step_access_of_races hi ha (.inr ⟨c, hc, Agent.owns_eq_false_iff.2 hne, hin⟩)
  · have hopen := not_races_of_owner hex hown
    exact ⟨step_otherRead_of_open nofun ho hopen, step_memWrite_of_open v ho hopen⟩

/-! ### Which steps reach buffer memory and the territories (R60, R78, R153)

No command and no register access reaches either (R140, R155, R170). -/

theorem acceptApply_keeps_mem_claims {s t : State} (h : acceptApply s = .next t) :
    t.mem = s.mem ∧ t.claims = s.claims := by
  rcases acceptApply_cases h with ⟨-, rfl⟩ | ⟨-, -, rfl⟩ | ⟨-, -, -, -, rfl⟩ | ⟨-, -, -, -, rfl⟩ <;>
    exact ⟨rfl, rfl⟩

theorem acceptEval_keeps_mem_claims {s t : State} (h : acceptEval s = .next t) :
    t.mem = s.mem ∧ t.claims = s.claims := by
  rcases acceptEval_cases h with ⟨-, rfl⟩ | ⟨-, rfl⟩ <;> exact ⟨rfl, rfl⟩

theorem cmdWrite_keeps_mem_claims {s t : State} {w : Word} (h : cmdWrite w s = .next t) :
    t.mem = s.mem ∧ t.claims = s.claims := by
  rcases cmdWrite_cases h with ⟨-, rfl⟩ | ⟨-, -, ha⟩ | ⟨-, -, he⟩ | ⟨-, -, rfl⟩
  · exact ⟨rfl, rfl⟩
  · exact acceptApply_keeps_mem_claims ha
  · exact acceptEval_keeps_mem_claims he
  · exact ⟨rfl, rfl⟩

theorem portAccess_keeps_mem_claims {bits : Nat} {access : PortAccess} {s t : State}
    (h : portAccess bits access s = .next t) : t.mem = s.mem ∧ t.claims = s.claims := by
  obtain ⟨-, ⟨slot, -, rfl⟩ | ⟨w, -, hc⟩ | ⟨w, -, rfl⟩ | ⟨_, _, -, -, -, _, _, _, _, rfl⟩⟩ :=
    portAccess_next_cases h
  · simp
  · exact cmdWrite_keeps_mem_claims hc
  · simp
  · exact ⟨rfl, rfl⟩

theorem memRead_keeps_mem_claims {agent : Agent} {a : Nat} {s t : State}
    (h : memRead agent a s = .next t) : t.mem = s.mem ∧ t.claims = s.claims := by
  obtain ⟨-, -, ⟨-, rfl⟩ | ⟨-, rfl⟩⟩ := memRead_cases h <;> exact ⟨rfl, rfl⟩

theorem engineStep_claims {admits : Bool} {s t : State} (h : engineStep admits s = .next t) :
    t.claims = s.claims := by
  rcases engineStep_cases h with ⟨-, rfl⟩ | ⟨-, -, -, -, -, rfl⟩ | ⟨-, -, rfl⟩ | ⟨-, -, rfl⟩ <;> rfl

/-- Of the engine's steps only the byte step reaches memory, and there only its own byte (R149). -/
theorem byteStep_of_engineStep_changes_mem {admits : Bool} {s t : State} {a : Nat}
    (h : engineStep admits s = .next t) (ha : t.mem.read a ≠ s.mem.read a) :
    admits = true ∧ s.phase = .run ∧ s.cur.toNat < s.endOff.toNat ∧ a = s.nextAddr := by
  rcases engineStep_cases h with ⟨-, rfl⟩ | ⟨hp, hlt, hadm, -, -, rfl⟩ | ⟨-, -, rfl⟩ | ⟨-, -, rfl⟩
  · exact absurd rfl ha
  · exact ⟨hadm, hp, hlt, not_not.1 fun hne => ha (Memory.read_write_other _ _ hne)⟩
  · exact absurd rfl ha
  · exact absurd rfl ha

/-- Reset reaches memory only in the range of an APPLY it abandons (R231, R232). -/
theorem runSpan_holds_of_resetMemory_changes {mapped : List Nat} {s : State} {a : Nat}
    (ha : (resetMemory mapped s).read a ≠ s.mem.read a) : s.phase = .run ∧ s.runSpan.Holds a := by
  unfold resetMemory at ha
  split at ha
  · exact absurd rfl ha
  · next hp =>
    refine ⟨hp, not_not.1 fun hout => ha ?_⟩
    rw [read_resetBytes]
    exact if_neg hout

/-- Settles O37: each kind of step that goes on, by what it does to memory. -/
theorem onlyTheseStepsChangeMemory : Obligations.OnlyTheseStepsChangeMemory := by
  intro s t a h ha
  rcases step_next_cases h with ⟨admits, rest, hturn, he⟩ | ⟨_, _, _, -, hp⟩ | ⟨_, _, _, -, hr⟩ |
    ⟨agent, b, v, rest, hi, hw⟩ | ⟨mapped, rest, hi, rfl⟩ | ⟨_, _, _, _, -, rfl⟩ | ⟨_, _, -, rfl⟩
  · obtain ⟨rfl, hp, hlt, hnext⟩ := byteStep_of_engineStep_changes_mem he ha
    exact .inl ⟨rest, hturn, hp, hlt, hnext⟩
  · exact absurd (congrArg (·.read a) (portAccess_keeps_mem_claims hp).1) ha
  · exact absurd (congrArg (·.read a) (memRead_keeps_mem_claims hr).1) ha
  · obtain ⟨-, -, rfl⟩ := memWrite_cases hw
    have hab : a = b := not_not.1 fun hne => ha (Memory.read_write_other _ v hne)
    exact .inr (.inl ⟨agent, v, rest, hab ▸ hi⟩)
  · obtain ⟨hp, hlo, hhi⟩ := runSpan_holds_of_resetMemory_changes ha
    exact .inr (.inr ⟨mapped, rest, hi, hp, hlo, hhi⟩)
  · exact absurd rfl ha
  · exact absurd rfl ha

theorem step_changes_claims {s t : State} (h : step s = .next t) (hc : t.claims ≠ s.claims) :
    (∃ id base size rest, s.inbox = .otherRun id base size :: rest) ∨
      ∃ id rest, s.inbox = .otherEnd id :: rest := by
  rcases step_next_cases h with ⟨_, _, -, he⟩ | ⟨_, _, _, -, hp⟩ | ⟨_, _, _, -, hr⟩ | ⟨_, _, _, _, -, hw⟩ |
    ⟨_, _, -, rfl⟩ | ⟨id, base, size, rest, hi, -⟩ | ⟨id, rest, hi, -⟩
  · exact absurd (engineStep_claims he) hc
  · exact absurd (portAccess_keeps_mem_claims hp).2 hc
  · exact absurd (memRead_keeps_mem_claims hr).2 hc
  · obtain ⟨-, -, rfl⟩ := memWrite_cases hw
    exact absurd rfl hc
  · exact absurd rfl hc
  · exact .inl ⟨id, base, size, rest, hi⟩
  · exact .inr ⟨id, rest, hi⟩

theorem mem_otherRun_claims {s : State} {id base size : Nat} {c : Claim} :
    c ∈ (s.otherRun id base size).claims ↔ c = ⟨id, ⟨base, size⟩⟩ ∨ c ∈ s.claims :=
  List.mem_cons

theorem mem_otherEnd_claims {s : State} {id : Nat} {c : Claim} :
    c ∈ (s.otherEnd id).claims ↔ c ∈ s.claims ∧ c.owner ≠ id := by
  simp [State.otherEnd]

/-- Settles O42: each of the two events changes the list of territories alone, and no other step does. -/
theorem territoriesBeginAndEnd : Obligations.TerritoriesBeginAndEnd :=
  fun s id base size _ =>
    ⟨⟨(s.otherRun id base size).claims, rfl, fun _ => mem_otherRun_claims⟩,
      ⟨(s.otherEnd id).claims, rfl, fun _ => mem_otherEnd_claims⟩,
      fun _ h hc => step_changes_claims h hc⟩

end Sys2Proof.Machine
end

section
/-! PROOFS. Command words (30_encoding.md R90 to R92): each answer of the decoder and the words that get it, as
words and as numbers. -/

namespace Sys2Proof.Machine

/-! ### Decoder and encoder -/

@[simp] theorem decode_encode (i : Instr) : decode (encode i) = .ok i := by
  cases i <;> decide

theorem decode_eq_ok_iff {w : Word} {i : Instr} : decode w = .ok i ↔ w = encode i := by
  constructor
  · exact eq_encode_of_decode
  · rintro rfl
    exact decode_encode i

theorem toNat_tableWord (w : Nat) : (tableWord 32 w).toNat = w % 2 ^ 32 := by
  rw [tableWord, BitVec.toNat_ofNat, Nat.mod_mod]

theorem decodeTableWord_eq_some_iff {w : Nat} {i : Instr} :
    decodeTableWord 32 w = some i ↔ decode (tableWord 32 w) = .ok i := by
  rw [decodeTableWord, if_pos le_rfl]
  cases decode (tableWord 32 w) <;> simp [Except.toOption]

/-- Settles O3: only `encode i` decodes to `i`, and a table row is the word of its low 32 bits. -/
theorem decodeAndEncodeAgree : Obligations.DecodeAndEncodeAgree := by
  intro i _
  refine ⟨fun w => decode_eq_ok_iff, fun w => ?_⟩
  rw [decodeTableWord_eq_some_iff, decode_eq_ok_iff, ← BitVec.toNat_inj, toNat_tableWord]

/-! ### The decoder's answers by the number of the word -/

theorem toNat_encode (i : Instr) : (encode i).toNat = (opcodeFor i).toNat :=
  (BitVec.toNat_append 0#24 (opcodeFor i)).trans (by simp)

theorem decode_eq_ok_iff_toNat {w : Word} {i : Instr} :
    decode w = .ok i ↔ w.toNat = (opcodeFor i).toNat := by
  rw [decode_eq_ok_iff, ← BitVec.toNat_inj, toNat_encode]

theorem decode_eq_apply_iff_toNat {w : Word} : decode w = .ok .apply ↔ w.toNat = 1 :=
  decode_eq_ok_iff_toNat

theorem decode_eq_eval_iff_toNat {w : Word} : decode w = .ok .eval ↔ w.toNat = 2 :=
  decode_eq_ok_iff_toNat

theorem toNat_mbzOf (w : Word) : (mbzOf w).toNat = w.toNat / 256 := by
  have hw := w.isLt
  rw [mbzOf, BitVec.extractLsb'_toNat, Nat.shiftRight_eq_div_pow]
  omega

theorem mbzOf_eq_zero_iff {w : Word} : mbzOf w = 0 ↔ w.toNat < 256 := by
  rw [← BitVec.toNat_inj, toNat_mbzOf]
  exact Nat.div_eq_zero_iff_lt (by decide)

theorem decode_eq_mbzNonZero_iff {w : Word} : decode w = .error .mbzNonZero ↔ mbzOf w ≠ 0 := by
  unfold decode
  split
  · next hm => exact iff_of_true rfl hm
  · next hm =>
    refine iff_of_false ?_ hm
    split_ifs <;> simp

theorem decode_eq_mbzNonZero_iff_toNat {w : Word} :
    decode w = .error .mbzNonZero ↔ 256 ≤ w.toNat := by
  rw [decode_eq_mbzNonZero_iff, ne_eq, mbzOf_eq_zero_iff, not_lt]

/-- The decoder has four answers (R91), so the last is given exactly when the other three are not. -/
theorem decode_eq_reservedOpcode_iff {w : Word} :
    decode w = .error .reservedOpcode ↔
      ¬ decode w = .error .mbzNonZero ∧ ¬ decode w = .ok .apply ∧ ¬ decode w = .ok .eval := by
  match decode w with
  | .ok .apply => simp
  | .ok .eval => simp
  | .error .mbzNonZero => simp
  | .error .reservedOpcode => simp

theorem decode_eq_reservedOpcode_iff_toNat {w : Word} :
    decode w = .error .reservedOpcode ↔ w.toNat < 256 ∧ w.toNat ≠ 1 ∧ w.toNat ≠ 2 := by
  rw [decode_eq_reservedOpcode_iff, decode_eq_mbzNonZero_iff_toNat, decode_eq_apply_iff_toNat,
    decode_eq_eval_iff_toNat, not_le]

/-- Settles O2: the legal words by their OPCODE, those refused for MBZ by the size of the word, and the rest as
the answer that remains. -/
theorem exactlyTwoWordsAreLegal : Obligations.ExactlyTwoWordsAreLegal :=
  fun _ => ⟨decode_eq_apply_iff_toNat, decode_eq_eval_iff_toNat, decode_eq_mbzNonZero_iff_toNat,
    decode_eq_reservedOpcode_iff_toNat⟩

/-- Settles O1: two words are those of the commands, and the number of each other word gives its reason. -/
theorem tableWordsDecode : Obligations.TableWordsDecode :=
  ⟨decode_encode .apply, decode_encode .eval, decode_eq_reservedOpcode_iff_toNat.2 (by decide),
    decode_eq_reservedOpcode_iff_toNat.2 (by decide), decode_eq_reservedOpcode_iff_toNat.2 (by decide),
    decode_eq_mbzNonZero_iff_toNat.2 (by decide), decode_eq_mbzNonZero_iff_toNat.2 (by decide),
    decode_eq_mbzNonZero_iff_toNat.2 (by decide)⟩

end Sys2Proof.Machine
end

section
/-! PROOFS. The Curve Library (40_curves.md). Each curve is monotone and runs from 0 to 255, which bounds its
values; at a byte its value is a mixed number, and the rounding of that number is the closed form of R120, which
the table holds. -/

namespace Sys2Proof.Machine

/-! ### The curves by their names -/

theorem curve_cases (c : BitVec 2) : c = 0 ∨ c = 1 ∨ c = 2 ∨ c = 3 := by
  revert c
  decide

theorem evaluate_identity : evaluate 0 = clampIn := funext fun _ => if_pos rfl

theorem evaluate_light : evaluate 1 = light ∘ clampIn := by
  funext x
  simp [evaluate]

theorem evaluate_mid : evaluate 2 = mid ∘ clampIn := by
  funext x
  simp [evaluate]

theorem evaluate_dark : evaluate 3 = dark ∘ clampIn := by
  funext x
  simp [evaluate]

/-- R110: no input in the domain is clamped. -/
theorem clampIn_of_mem {x : ℚ} (h0 : 0 ≤ x) (h255 : x ≤ 255) : clampIn x = x := by
  rw [clampIn, max_eq_right h0, min_eq_right h255]

theorem clampOut_of_mem {y : ℚ} (h0 : 0 ≤ y) (h255 : y ≤ 255) : clampOut y = y := by
  rw [clampOut, max_eq_right h0, min_eq_right h255]

theorem clampIn_mono : Monotone clampIn :=
  monotone_const.min (monotone_const.max monotone_id)

theorem clampIn_nonneg (x : ℚ) : 0 ≤ clampIn x := le_min (by norm_num) (le_max_left 0 x)

theorem clampIn_le (x : ℚ) : clampIn x ≤ 255 := min_le_left 255 _

/-! ### Interpolation (R111, R112) -/

/-- R112: a segment that is not the last one excludes its high end. -/
theorem interpolate_cons_cons_cons (p q r : ℚ × ℚ) (rest : List (ℚ × ℚ)) (x : ℚ) :
    interpolate (p :: q :: r :: rest) x =
      if x < q.1 then segmentAt p q x else interpolate (q :: r :: rest) x := rfl

theorem interpolate_pair (p q : ℚ × ℚ) (x : ℚ) : interpolate [p, q] x = segmentAt p q x := rfl

/-- R113 to R115 write the first segment, from the anchor (0, 0), without its zeros. -/
theorem segmentAt_origin (q : ℚ × ℚ) (x : ℚ) : segmentAt (0, 0) q x = x / q.1 * q.2 := by
  simp [segmentAt]

theorem light_eq_interpolate (x : ℚ) : light x = interpolate (controlPoints 1) x := by
  change _ = interpolate [(0, 0), (170, 20), (255, 255)] x
  rw [interpolate_cons_cons_cons, interpolate_pair, segmentAt_origin]
  rfl

theorem mid_eq_interpolate (x : ℚ) : mid x = interpolate (controlPoints 2) x := by
  change _ = interpolate [(0, 0), (120, 20), (170, 220), (255, 255)] x
  rw [interpolate_cons_cons_cons, interpolate_cons_cons_cons, interpolate_pair, segmentAt_origin]
  rfl

theorem dark_eq_interpolate (x : ℚ) : dark x = interpolate (controlPoints 3) x := by
  change _ = interpolate [(0, 0), (120, 220), (255, 255)] x
  rw [interpolate_cons_cons_cons, interpolate_pair, segmentAt_origin]
  rfl

/-- Settles O51: in the domain the input clamp is idle, and each formula is its own interpolation. -/
theorem curvesInterpolateTheirControlPoints : Obligations.CurvesInterpolateTheirControlPoints := by
  intro c x hc h0 h255
  have hx : clampIn x = x := clampIn_of_mem h0 h255
  rcases curve_cases c with rfl | rfl | rfl | rfl
  · exact absurd rfl hc
  · rw [evaluate_light, Function.comp_apply, hx, light_eq_interpolate]
  · rw [evaluate_mid, Function.comp_apply, hx, mid_eq_interpolate]
  · rw [evaluate_dark, Function.comp_apply, hx, dark_eq_interpolate]

/-! ### Every curve is increasing and runs from 0 to 255 (R117) -/

theorem light_mono : Monotone light := by
  intro x y h
  unfold light
  split_ifs <;> linarith

theorem mid_mono : Monotone mid := by
  intro x y h
  unfold mid
  split_ifs <;> linarith

theorem dark_mono : Monotone dark := by
  intro x y h
  unfold dark
  split_ifs <;> linarith

theorem evaluate_mono (c : BitVec 2) : Monotone (evaluate c) := by
  rcases curve_cases c with rfl | rfl | rfl | rfl
  · rw [evaluate_identity]
    exact clampIn_mono
  · rw [evaluate_light]
    exact light_mono.comp clampIn_mono
  · rw [evaluate_mid]
    exact mid_mono.comp clampIn_mono
  · rw [evaluate_dark]
    exact dark_mono.comp clampIn_mono

theorem evaluate_zero (c : BitVec 2) : evaluate c 0 = 0 := by
  have h : clampIn 0 = 0 := clampIn_of_mem le_rfl (by norm_num)
  rcases curve_cases c with rfl | rfl | rfl | rfl
  · rw [evaluate_identity, h]
  · norm_num [evaluate_light, h, light]
  · norm_num [evaluate_mid, h, mid]
  · norm_num [evaluate_dark, h, dark]

theorem evaluate_255 (c : BitVec 2) : evaluate c 255 = 255 := by
  have h : clampIn 255 = 255 := clampIn_of_mem (by norm_num) le_rfl
  rcases curve_cases c with rfl | rfl | rfl | rfl
  · rw [evaluate_identity, h]
  · norm_num [evaluate_light, h, light]
  · norm_num [evaluate_mid, h, mid]
  · norm_num [evaluate_dark, h, dark]

/-- A second input clamp changes nothing. -/
theorem evaluate_clampIn (c : BitVec 2) (x : ℚ) : evaluate c (clampIn x) = evaluate c x := by
  unfold evaluate
  rw [clampIn_of_mem (clampIn_nonneg x) (clampIn_le x)]

theorem evaluate_nonneg (c : BitVec 2) (x : ℚ) : 0 ≤ evaluate c x :=
  calc 0 = evaluate c 0 := (evaluate_zero c).symm
    _ ≤ evaluate c (clampIn x) := evaluate_mono c (clampIn_nonneg x)
    _ = evaluate c x := evaluate_clampIn c x

theorem evaluate_le (c : BitVec 2) (x : ℚ) : evaluate c x ≤ 255 :=
  calc evaluate c x = evaluate c (clampIn x) := (evaluate_clampIn c x).symm
    _ ≤ evaluate c 255 := evaluate_mono c (clampIn_le x)
    _ = 255 := evaluate_255 c

theorem clampOut_evaluate (c : BitVec 2) (x : ℚ) : clampOut (evaluate c x) = evaluate c x :=
  clampOut_of_mem (evaluate_nonneg c x) (evaluate_le c x)

/-! ### Rounding (R118) -/

theorem round8_mono : Monotone round8 := fun _ _ h => Int.floor_mono (by linarith)

theorem round8_intCast (n : ℤ) : round8 n = n := by
  rw [round8, Int.floor_intCast_add]
  norm_num

/-- Settles O52: each curve increases from 0 to 255, and rounding is monotone and keeps both ends. -/
theorem curvesStayInRange : Obligations.CurvesStayInRange := by
  intro c x
  have hlo : 0 ≤ round8 (evaluate c x) := by
    simpa using (round8_intCast 0).symm.trans_le (round8_mono (evaluate_nonneg c x))
  have hhi : round8 (evaluate c x) ≤ 255 := by
    simpa using (round8_mono (evaluate_le c x)).trans_eq (round8_intCast 255)
  refine ⟨evaluate_nonneg c x, evaluate_le c x, clampOut_evaluate c x, ?_⟩
  rw [clampOut_evaluate, max_eq_right hlo, min_eq_right hhi]

/-! ### The tables hold the closed forms (R120 to R123)

The hex rows are data, so each table is compared entry by entry, by evaluation. -/

theorem lut_light (b : Byte) : lut 1 b = romEntry lightRom b := by simp [lut]

theorem lut_mid (b : Byte) : lut 2 b = romEntry midRom b := by simp [lut]

theorem lut_dark (b : Byte) : lut 3 b = romEntry darkRom b := by simp [lut]

theorem romEntry_lightRom (b : Byte) : (romEntry lightRom b).toNat = lutClosed 1 b.toNat := by
  revert b
  decide +kernel

theorem romEntry_midRom (b : Byte) : (romEntry midRom b).toNat = lutClosed 2 b.toNat := by
  revert b
  decide +kernel

theorem romEntry_darkRom (b : Byte) : (romEntry darkRom b).toNat = lutClosed 3 b.toNat := by
  revert b
  decide +kernel

/-- Settles O50: the identity by definition, and each of the three tables entry by entry. -/
theorem closedFormsEqualTheLut : Obligations.ClosedFormsEqualTheLut := by
  intro c b
  rcases curve_cases c with rfl | rfl | rfl | rfl
  · rfl
  · rw [lut_light, romEntry_lightRom]
  · rw [lut_mid, romEntry_midRom]
  · rw [lut_dark, romEntry_darkRom]

/-! ### The exact value at a byte, as a mixed number -/

/-- The number `whole + num / den`. -/
structure Mixed where
  whole : Nat
  num : Nat
  den : Nat
  den_pos : 0 < den

namespace Mixed

def value (m : Mixed) : ℚ := m.whole + m.num / m.den

/-- The integer expression that R120 derives for the rounded value. -/
def rounded (m : Mixed) : Nat := m.whole + (2 * m.num + m.den) / (2 * m.den)

/-- The remainder is half the denominator. -/
def IsTie (m : Mixed) : Prop := 2 * (m.num % m.den) = m.den

/-- R120: `floor(p/q + 1/2) = (2p + q) div (2q)`. -/
theorem round8_value (m : Mixed) : round8 m.value = m.rounded := by
  have hd : (m.den : ℚ) ≠ 0 := by exact_mod_cast m.den_pos.ne'
  have hsum : (m.num / m.den + 1 / 2 : ℚ) = ((2 * m.num + m.den : Nat) : ℚ) / (2 * m.den : Nat) := by
    push_cast
    field_simp
  rw [round8, value, add_assoc, hsum, Int.floor_natCast_add, Rat.floor_natCast_div_natCast]
  push_cast
  rfl

theorem fract_value_eq_half_iff (m : Mixed) : Int.fract m.value = 1 / 2 ↔ m.IsTie := by
  have hd : (m.den : ℚ) ≠ 0 := by exact_mod_cast m.den_pos.ne'
  rw [value, Int.fract_natCast_add, Int.fract_div_natCast_eq_div_natCast_mod,
    div_eq_div_iff hd two_ne_zero, IsTie]
  norm_cast
  omega

end Mixed

/-- R113 at a byte. -/
def lightAt (b : Nat) : Mixed :=
  if b < 170 then ⟨0, 2 * b, 17, by decide⟩ else ⟨20, 47 * (b - 170), 17, by decide⟩

/-- R114 at a byte. -/
def midAt (b : Nat) : Mixed :=
  if b < 120 then ⟨0, b, 6, by decide⟩
  else if b < 170 then ⟨20 + 4 * (b - 120), 0, 1, by decide⟩
  else ⟨220, 7 * (b - 170), 17, by decide⟩

/-- R115 at a byte. -/
def darkAt (b : Nat) : Mixed :=
  if b < 120 then ⟨0, 11 * b, 6, by decide⟩ else ⟨220, 7 * (b - 120), 27, by decide⟩

/-- The exact value of a curve at a byte, a whole number for the identity (R116). -/
def exactAt (c : BitVec 2) (b : Nat) : Mixed :=
  if c = 0 then ⟨b, 0, 1, by decide⟩
  else if c = 1 then lightAt b
  else if c = 2 then midAt b
  else darkAt b

theorem exactAt_light (b : Nat) : exactAt 1 b = lightAt b := by simp [exactAt]

theorem exactAt_mid (b : Nat) : exactAt 2 b = midAt b := by simp [exactAt]

theorem exactAt_dark (b : Nat) : exactAt 3 b = darkAt b := by simp [exactAt]

theorem light_natCast (b : Nat) : light b = (lightAt b).value := by
  simp only [light, lightAt, Nat.cast_lt_ofNat]
  split_ifs with h <;> simp only [Mixed.value]
  · push_cast
    ring
  · push_cast [not_lt.1 h]
    ring

theorem mid_natCast (b : Nat) : mid b = (midAt b).value := by
  simp only [mid, midAt, Nat.cast_lt_ofNat]
  split_ifs with h120 h170 <;> simp only [Mixed.value]
  · push_cast
    ring
  · push_cast [not_lt.1 h120]
    ring
  · push_cast [not_lt.1 h170]
    ring

theorem dark_natCast (b : Nat) : dark b = (darkAt b).value := by
  simp only [dark, darkAt, Nat.cast_lt_ofNat]
  split_ifs with h <;> simp only [Mixed.value]
  · push_cast
    ring
  · push_cast [not_lt.1 h]
    ring

theorem evaluate_byte (c : BitVec 2) (b : Byte) :
    evaluate c b.toNat = (exactAt c b.toNat).value := by
  have hb : clampIn b.toNat = b.toNat :=
    clampIn_of_mem (Nat.cast_nonneg _) (by exact_mod_cast Nat.le_of_lt_succ b.isLt)
  rcases curve_cases c with rfl | rfl | rfl | rfl
  · rw [evaluate_identity, hb]
    simp [exactAt, Mixed.value]
  · rw [evaluate_light, Function.comp_apply, hb, light_natCast, exactAt_light]
  · rw [evaluate_mid, Function.comp_apply, hb, mid_natCast, exactAt_mid]
  · rw [evaluate_dark, Function.comp_apply, hb, dark_natCast, exactAt_dark]

theorem lutClosed_eq_exactAt (c : BitVec 2) (b : Nat) : lutClosed c b = (exactAt c b).rounded := by
  unfold lutClosed exactAt lightAt midAt darkAt
  split_ifs <;> dsimp only [Mixed.rounded] <;> omega

/-- R120 is the rounding of the exact value. -/
theorem round8_evaluate_byte (c : BitVec 2) (b : Byte) :
    round8 (evaluate c b.toNat) = lutClosed c b.toNat := by
  rw [evaluate_byte, Mixed.round8_value, lutClosed_eq_exactAt]

theorem lut_eq_round8 (c : BitVec 2) (b : Byte) :
    ((lut c b).toNat : ℤ) = round8 (evaluate c b.toNat) := by
  rw [round8_evaluate_byte, closedFormsEqualTheLut c b]

/-- Settles O49: the output clamp is idle, and the closed form is both the rounded value and the entry. -/
theorem lutRoundsTheExactCurve : Obligations.LutRoundsTheExactCurve := by
  intro c b
  refine ⟨rfl, ?_⟩
  rw [clampOut_evaluate, lut_eq_round8]

theorem lut_mono (c : BitVec 2) {a b : Byte} (h : a.toNat ≤ b.toNat) :
    (lut c a).toNat ≤ (lut c b).toNat := by
  have hround : round8 (evaluate c a.toNat) ≤ round8 (evaluate c b.toNat) :=
    round8_mono (evaluate_mono c (by exact_mod_cast h))
  rwa [← lut_eq_round8, ← lut_eq_round8, Int.ofNat_le] at hround

/-- A byte that the exact curve fixes is fixed by the table. -/
theorem lut_of_fixed {c : BitVec 2} {b : Byte} (h : evaluate c b.toNat = b.toNat) : lut c b = b := by
  have hround : ((lut c b).toNat : ℤ) = b.toNat := by
    rw [lut_eq_round8, h]
    exact round8_intCast b.toNat
  exact BitVec.eq_of_toNat_eq (by exact_mod_cast hround)

/-- Settles O53: the exact curve is monotone with fixed ends, and so is its rounding. -/
theorem lutIsMonotone : Obligations.LutIsMonotone :=
  fun c _ _ => ⟨lut_mono c, lut_of_fixed (by simpa using evaluate_zero c),
    lut_of_fixed (by simpa using evaluate_255 c)⟩

/-! ### The ties (R124) -/

theorem not_isTie_lightAt (b : Nat) : ¬ (lightAt b).IsTie := by
  unfold lightAt
  split_ifs <;> dsimp only [Mixed.IsTie] <;> omega

theorem isTie_midAt_iff (b : Nat) : (midAt b).IsTie ↔ b < 120 ∧ b % 6 = 3 := by
  unfold midAt
  split_ifs <;> dsimp only [Mixed.IsTie] <;> omega

theorem isTie_darkAt_iff (b : Nat) : (darkAt b).IsTie ↔ b < 120 ∧ b % 6 = 3 := by
  unfold darkAt
  split_ifs <;> dsimp only [Mixed.IsTie] <;> omega

/-- Settles O54: a tie is a remainder of half the denominator, which an odd denominator never leaves. -/
theorem tiesAreExactlyThese : Obligations.TiesAreExactlyThese := by
  intro c b hc
  rw [evaluate_byte, Mixed.fract_value_eq_half_iff]
  rcases curve_cases c with rfl | rfl | rfl | rfl
  · exact absurd rfl hc
  · rw [exactAt_light]
    simpa using not_isTie_lightAt b.toNat
  · rw [exactAt_mid]
    simpa using isTie_midAt_iff b.toNat
  · rw [exactAt_dark]
    simpa using isTie_darkAt_iff b.toNat

end Sys2Proof.Machine
end

section
/-! PROOFS. APPLY (41_apply.md): what each check of acceptance answers, the frame of both commands, each step of
the engine, and the whole run: after `k` steps the first `k` bytes of the range are mapped. -/

namespace Sys2Proof.Machine

/-! ### Acceptance (R141 to R145), an answer per check -/

theorem acceptApply_of_selectorInvalid {s : State} (hv : SelectorInvalid s) :
    acceptApply s = .next (s.clearDone.report .invalidCurveSelector s.sel maxCurveId) := if_pos hv

theorem acceptApply_of_wraps {s : State} (hv : ¬ SelectorInvalid s) (hw : Wraps s) :
    acceptApply s = .next (s.clearDone.report .nonContiguousBuffer 0 0) := by
  unfold acceptApply
  rw [if_neg hv, if_pos hw]

theorem acceptApply_of_valid {s : State} (hv : ¬ SelectorInvalid s) (hw : ¬ Wraps s)
    (hm : ¬ BufferMisplaced s) :
    acceptApply s = if s.sel = 0 then .next s.clearDone.completeOk else .next s.clearDone.beginRun := by
  unfold acceptApply
  rw [if_neg hv, if_neg hw, if_neg hm]

theorem not_misplaced_of_bytes {cfg : Config} {b n : Nat}
    (h : ∀ a, b ≤ a → a < b + n → ∀ r ∈ cfg.memMap, r.kind ≠ .hole → ¬ Contains r a) :
    ¬ Misplaced cfg b n := by
  rw [misplaced_iff]
  rintro ⟨a, hlo, hhi, r, hr, hk, hc⟩
  exact h a hlo hhi r hr hk hc

theorem curveOf_eq_ofNat (w : Word) : curveOf w = BitVec.ofNat 2 w.toNat := (BitVec.ofNat_toNat 2 w).symm

/-- Acceptance into RUN (R145). -/
theorem exec_apply_eq_beginRun {s : State} (hp : s.phase = .idle) (h0 : 0 < s.sel.toNat)
    (h3 : s.sel.toNat ≤ 3) (hw : s.base.toNat + s.len.toNat ≤ 2 ^ s.cfg.aw) (hm : ¬ BufferMisplaced s) :
    exec .apply s = .next s.clearDone.beginRun := by
  have hsel : s.sel ≠ 0 := fun he => absurd h0 (by rw [he]; decide)
  rw [exec_apply_of_idle hp, acceptApply_of_valid (Nat.not_lt.2 h3) (Nat.not_lt.2 hw) hm, if_neg hsel]

/-- Settles O12: the selector is the first check. -/
theorem applyRejectsASelectorAboveThree : Obligations.ApplyRejectsASelectorAboveThree := by
  intro s hp hv
  rw [exec_apply_of_idle hp]
  exact acceptApply_of_selectorInvalid hv

/-- Settles O13: the length is the second check, and no later one reports that error: the identity reports OK, and
a run begins with DONE = 0. -/
theorem applyRejectsAWrappingBuffer : Obligations.ApplyRejectsAWrappingBuffer := by
  intro s hp h3
  rw [exec_apply_of_idle hp]
  refine ⟨fun hw => acceptApply_of_wraps (Nat.not_lt.2 h3) hw, ?_⟩
  rintro hw t ht ⟨hd, he⟩
  rcases acceptApply_cases ht with ⟨hv, -⟩ | ⟨-, hlong, -⟩ | ⟨-, -, -, -, rfl⟩ | ⟨-, -, -, -, rfl⟩
  · exact Nat.not_lt.2 h3 hv
  · exact Nat.not_lt.2 hw hlong
  · simp at he
  · simp at hd

/-- Settles O14: the buffer passes every check, and the selector is the identity's. -/
theorem applyIdentityTouchesNothing : Obligations.ApplyIdentityTouchesNothing := by
  intro s hp h0 hw hbytes
  have hv : ¬ SelectorInvalid s := Nat.not_lt.2 (h0 ▸ Nat.zero_le 3)
  rw [exec_apply_of_idle hp,
    acceptApply_of_valid hv (Nat.not_lt.2 hw) (not_misplaced_of_bytes hbytes),
    if_pos (BitVec.eq_of_toNat_eq h0)]
  rfl

/-- Settles O15: the buffer passes every check, and the latched curve is the selector's low bits. -/
theorem applyEntersRun : Obligations.ApplyEntersRun := by
  intro s hp h0 h3 hw hbytes
  rw [exec_apply_eq_beginRun hp h0 h3 hw (not_misplaced_of_bytes hbytes), ← curveOf_eq_ofNat]
  rfl

/-! ### What the commands leave unchanged (R140, R155, R170, R174) -/

/-- A command is dropped while RUN and accepted while IDLE. -/
theorem exec_cases {i : Instr} {s t : State} (h : exec i s = .next t) :
    (s.phase = .run ∧ t = s.drop) ∨
    (s.phase = .idle ∧ i = .apply ∧ acceptApply s = .next t) ∨
    (s.phase = .idle ∧ i = .eval ∧ acceptEval s = .next t) := by
  cases hp : s.phase with
  | run =>
    rw [exec_of_run i hp] at h
    cases h
    exact .inl ⟨rfl, rfl⟩
  | idle =>
    cases i with
    | apply => rw [exec_apply_of_idle hp] at h; exact .inr (.inl ⟨rfl, rfl, h⟩)
    | eval => rw [exec_eval_of_idle hp] at h; exact .inr (.inr ⟨rfl, rfl, h⟩)

/-- From `s` to `t` only the report, RESULT, DROPPED and the engine's registers may differ. -/
structure KeepsOperandsAndMemory (s t : State) : Prop where
  mem : t.mem = s.mem := by rfl
  cfg : t.cfg = s.cfg := by rfl
  sel : t.sel = s.sel := by rfl
  base : t.base = s.base := by rfl
  len : t.len = s.len := by rfl
  sample : t.sample = s.sample := by rfl
  unacquired : t.unacquired = s.unacquired := by rfl
  claims : t.claims = s.claims := by rfl
  inbox : t.inbox = s.inbox := by rfl
  replies : t.replies = s.replies := by rfl

theorem acceptApply_keepsOperandsAndMemory {s t : State} (h : acceptApply s = .next t) :
    KeepsOperandsAndMemory s t := by
  rcases acceptApply_cases h with ⟨-, rfl⟩ | ⟨-, -, rfl⟩ | ⟨-, -, -, -, rfl⟩ | ⟨-, -, -, -, rfl⟩ <;> exact {}

theorem acceptEval_keepsOperandsAndMemory {s t : State} (h : acceptEval s = .next t) :
    KeepsOperandsAndMemory s t := by
  rcases acceptEval_cases h with ⟨-, rfl⟩ | ⟨-, rfl⟩ <;> exact {}

theorem exec_keepsOperandsAndMemory {i : Instr} {s t : State} (h : exec i s = .next t) :
    KeepsOperandsAndMemory s t := by
  rcases exec_cases h with ⟨-, rfl⟩ | ⟨-, -, ha⟩ | ⟨-, -, he⟩
  · exact {}
  · exact acceptApply_keepsOperandsAndMemory ha
  · exact acceptEval_keepsOperandsAndMemory he

theorem exec_keeps_dropped_of_idle {i : Instr} {s t : State} (h : exec i s = .next t)
    (hp : s.phase = .idle) : t.dropped = s.dropped := by
  rcases exec_cases h with ⟨hr, -⟩ | ⟨-, -, ha⟩ | ⟨-, -, he⟩
  · simp [hp] at hr
  · exact (acceptApply_keeps_dropped_result ha).1
  · exact acceptEval_keeps_dropped he

theorem exec_apply_keeps_result {s t : State} (h : exec .apply s = .next t) : t.result = s.result := by
  rcases exec_cases h with ⟨-, rfl⟩ | ⟨-, -, ha⟩ | ⟨-, hi, -⟩
  · rfl
  · exact (acceptApply_keeps_dropped_result ha).2
  · cases hi

/-- EVAL does not touch the engine (R174). -/
theorem exec_eval_keeps_engine {s t : State} (h : exec .eval s = .next t) :
    t.phase = s.phase ∧ t.lsel = s.lsel ∧ t.lbase = s.lbase ∧ t.endOff = s.endOff ∧ t.cur = s.cur := by
  rcases exec_cases h with ⟨-, rfl⟩ | ⟨-, hi, -⟩ | ⟨-, -, he⟩
  · simp
  · cases hi
  · rcases acceptEval_cases he with ⟨-, rfl⟩ | ⟨-, rfl⟩ <;> simp

/-- Settles O17: a command is dropped or accepted, and each acceptance keeps what is named. -/
theorem commandFrame : Obligations.CommandFrame := by
  intro i s t h
  have hk := exec_keepsOperandsAndMemory h
  refine ⟨fun a => by rw [hk.mem], hk.cfg, hk.sel, hk.base, hk.len, hk.sample, hk.unacquired, hk.claims,
    hk.inbox, hk.replies, exec_keeps_dropped_of_idle h, ?_, ?_⟩
  · rintro rfl
    exact exec_apply_keeps_result h
  · rintro rfl
    exact exec_eval_keeps_engine h

/-! ### The engine's steps (R148 to R151) -/

theorem engineStep_of_lt {s : State} (admits : Bool) (hp : s.phase = .run)
    (hc : s.cur.toNat < s.endOff.toNat) : engineStep admits s = byteStep admits s := by
  simp only [engineStep, hp]
  exact if_pos hc

theorem engineStep_of_eq {s : State} (admits : Bool) (hp : s.phase = .run) (hc : s.cur = s.endOff) :
    engineStep admits s = .next s.endRun.completeOk := by
  simp only [engineStep, hp]
  rw [if_neg (by rw [hc]; exact Nat.lt_irrefl _), if_pos hc, completionStep]

theorem byteStep_of_rejected {admits : Bool} {s : State} (hf : ¬ Foreign s s.nextAddr)
    (hr : admits = false ∨ ¬ Ordinary s.cfg s.nextAddr) :
    byteStep admits s = .fault (.memPortError s.nextAddr) := by
  have hadm : ¬ (admits = true ∧ Ordinary s.cfg s.nextAddr) := by
    rintro ⟨rfl, ho⟩
    exact hr.elim nofun (absurd ho)
  unfold byteStep
  rw [if_neg hf, if_neg hadm]

/-- Settles O20: an open byte is written at its own address alone, and a rejected access is the fault. -/
theorem byteStepMapsOneByte : Obligations.ByteStepMapsOneByte := by
  intro s admits rest hturn hp hc hf
  have hstep : step s = byteStep admits { s with inbox := rest } :=
    (step_of_engineTurn hturn).trans (engineStep_of_lt (s := { s with inbox := rest }) admits hp hc)
  rw [hstep]
  constructor
  · rintro rfl ho
    exact ⟨_, byteStep_of_open (s := { s with inbox := rest }) hf ho, Memory.read_write_same _ _ _,
      fun _ ha => Memory.read_write_other _ _ ha⟩
  · exact byteStep_of_rejected (s := { s with inbox := rest }) hf

/-- Settles O21: at CUR = END the engine's step is the completion step. -/
theorem completionStepReportsSuccess : Obligations.CompletionStepReportsSuccess := by
  intro s admits rest hturn hp hc
  rw [step_of_engineTurn hturn]
  exact ⟨_, engineStep_of_eq (s := { s with inbox := rest }) admits hp hc⟩

/-- Settles O22: while IDLE the engine has no step. -/
theorem idleEngineHasNoStep : Obligations.IdleEngineHasNoStep := by
  intro s admits rest hturn hp
  rw [step_of_engineTurn hturn]
  exact engineStep_of_idle (s := { s with inbox := rest }) admits hp

/-! ### A whole run (R147, R152 to R154) -/

/-- The memory with the first `n` bytes from `b` on mapped by the curve. -/
def Memory.mapBytes (c : BitVec 2) (b : Nat) (m : Memory) : Nat → Memory
  | 0 => m
  | n + 1 => (mapBytes c b m n).write (b + n) (lut c (m.read (b + n)))

theorem Memory.read_mapBytes (c : BitVec 2) (b : Nat) (m : Memory) (n a : Nat) :
    (m.mapBytes c b n).read a = if b ≤ a ∧ a < b + n then lut c (m.read a) else m.read a := by
  induction n with
  | zero => rw [if_neg (by omega), mapBytes]
  | succ n ih =>
    rw [mapBytes, read_write, ih]
    by_cases h : a = b + n
    · rw [if_pos h, if_pos (by omega), h]
    · rw [if_neg h]
      exact if_congr (by omega) rfl rfl

/-- The state of a run that began in `s`, after `k` byte steps. -/
def State.afterBytes (s : State) (k : Nat) : State :=
  { s with mem := s.mem.mapBytes s.lsel s.lbase.toNat k, cur := BitVec.ofNat 32 k }

theorem State.afterBytes_zero {s : State} (hc : s.cur = 0) : s.afterBytes 0 = s :=
  congrArg (fun c => { s with cur := c }) hc.symm

theorem State.afterBytes_cur_toNat {s : State} {k : Nat} (hk : k ≤ s.endOff.toNat) :
    (s.afterBytes k).cur.toNat = k :=
  Nat.mod_eq_of_lt (Nat.lt_of_le_of_lt hk s.endOff.isLt)

/-- A byte that is not reached yet is as it was. -/
theorem State.afterBytes_mem_read (s : State) (k : Nat) :
    (s.afterBytes k).mem.read (s.lbase.toNat + k) = s.mem.read (s.lbase.toNat + k) :=
  (Memory.read_mapBytes _ _ _ _ _).trans (if_neg (by omega))

section

variable {s : State} (hi : s.inbox = []) (hp : s.phase = .run)
include hi hp

theorem step_afterBytes {k : Nat} (hk : k < s.endOff.toNat) (ho : Ordinary s.cfg (s.lbase.toNat + k))
    (hf : ¬ Foreign s (s.lbase.toNat + k)) : step (s.afterBytes k) = .next (s.afterBytes (k + 1)) := by
  have hcur : (s.afterBytes k).cur.toNat = k := State.afterBytes_cur_toNat (Nat.le_of_lt hk)
  have haddr : (s.afterBytes k).nextAddr = s.lbase.toNat + k := congrArg (s.lbase.toNat + ·) hcur
  have hnext : (s.afterBytes k).cur + 1 = BitVec.ofNat 32 (k + 1) := (BitVec.ofNat_add k 1).symm
  rw [step_of_nil (s := s.afterBytes k) hi, engineStep_of_lt (s := s.afterBytes k) true hp (hcur.trans_lt hk),
    byteStep_of_open (haddr ▸ hf) (haddr ▸ ho), haddr, s.afterBytes_mem_read, hnext]
  rfl

variable (hc : s.cur = 0) (hopen : ∀ i < s.endOff.toNat,
  Ordinary s.cfg (s.lbase.toNat + i) ∧ ¬ Foreign s (s.lbase.toNat + i))
include hc hopen

/-- After `k` steps of a run the first `k` bytes are mapped. -/
theorem runFor_eq_afterBytes {k : Nat} (hk : k ≤ s.endOff.toNat) :
    runFor k s = .next (s.afterBytes k) := by
  induction k with
  | zero => rw [State.afterBytes_zero hc, runFor_zero]
  | succ k ih =>
    obtain ⟨ho, hf⟩ := hopen k hk
    rw [runFor_add k 1 (ih (Nat.le_of_lt hk)), runFor_of_next 0 (step_afterBytes hi hp hk ho hf),
      runFor_zero]

/-- The completion step follows END byte steps (R152). -/
theorem runFor_to_completion :
    runFor (s.endOff.toNat + 1) s = .next (s.afterBytes s.endOff.toNat).endRun.completeOk := by
  have hend : (s.afterBytes s.endOff.toNat).cur = s.endOff :=
    BitVec.eq_of_toNat_eq (State.afterBytes_cur_toNat (Nat.le_refl _))
  have hstep : step (s.afterBytes s.endOff.toNat) =
      .next (s.afterBytes s.endOff.toNat).endRun.completeOk :=
    (step_of_nil (s := s.afterBytes s.endOff.toNat) hi).trans
      (engineStep_of_eq (s := s.afterBytes s.endOff.toNat) true hp hend)
  rw [runFor_add _ 1 (runFor_eq_afterBytes hi hp hc hopen (Nat.le_refl _)), runFor_of_next 0 hstep,
    runFor_zero]

end

/-- Settles O23: the accepted state `t` runs for END byte steps and a completion step, whose memory is read byte by
byte; a run leaves every other field the statement names. -/
theorem applyMapsTheWholeGroups : Obligations.ApplyMapsTheWholeGroups := by
  intro s hi hp h0 h3 hw hm hbytes
  rw [← wholeGroups_toNat] at hbytes ⊢
  rw [← curveOf_eq_ofNat]
  let t := s.clearDone.beginRun
  let u := (t.afterBytes t.endOff.toNat).endRun.completeOk
  have hmem : ∀ a, u.mem.read a =
      if s.base.toNat ≤ a ∧ a < s.base.toNat + (wholeGroups s.len).toNat
      then lut (curveOf s.sel) (s.mem.read a) else s.mem.read a :=
    Memory.read_mapBytes _ _ _ _
  have hinbox : u.inbox = [] := hi
  refine ⟨t, u, exec_apply_eq_beginRun hp h0 h3 hw hm,
    runFor_to_completion (s := t) hi rfl rfl hbytes,
    fun k hk => ⟨_, runFor_eq_afterBytes (s := t) hi rfl rfl hbytes hk, rfl⟩,
    ⟨by simp [hinbox], rfl⟩, hinbox, rfl, rfl, rfl, rfl,
    fun i hlt => ?mapped, fun a hout => ?outside, rfl, rfl, rfl, rfl, rfl, rfl⟩
  case mapped => rw [hmem, if_pos (by omega)]
  case outside => rw [hmem, if_neg (by omega)]

end Sys2Proof.Machine
end

section
/-! PROOFS. EVAL (42_eval.md): the answer of each acceptance, that no buffer enters it, and that RESULT is the byte
the engine writes. -/

namespace Sys2Proof.Machine

/-- Settles O7: the drop while RUN is one law for both commands (log entry 16). -/
theorem commandsAreDroppedWhileBusy : Obligations.CommandsAreDroppedWhileBusy :=
  fun i _ hp => exec_of_run i hp

/-! ### Acceptance (R171, R172), an answer per selector -/

theorem acceptEval_of_selectorInvalid {s : State} (hv : SelectorInvalid s) :
    acceptEval s = .next (s.clearDone.report .invalidCurveSelector s.sel maxCurveId) := if_pos hv

theorem acceptEval_of_valid {s : State} (hv : ¬ SelectorInvalid s) :
    acceptEval s = .next { s.clearDone.completeOk with result := evalByte s } := if_neg hv

theorem evalByte_of_zero {s : State} (h0 : s.sel.toNat = 0) : evalByte s = s.sample :=
  if_pos (BitVec.eq_of_toNat_eq h0)

theorem evalByte_of_pos {s : State} (h0 : 0 < s.sel.toNat) :
    evalByte s = lut (BitVec.ofNat 2 s.sel.toNat) s.sample := by
  have hsel : s.sel ≠ 0 := fun he => absurd h0 (by rw [he]; decide)
  rw [evalByte, if_neg hsel, curveOf_eq_ofNat]

/-- Settles O9: the selector is the only check, and `evalByte` is the byte of R172. -/
theorem evalCompletes : Obligations.EvalCompletes := by
  intro s hp
  rw [exec_eval_of_idle hp]
  refine ⟨fun h0 => ?identity, fun h0 h3 => ?curve, fun hv => acceptEval_of_selectorInvalid hv⟩
  case identity =>
    rw [acceptEval_of_valid (Nat.not_lt.2 (h0 ▸ Nat.zero_le 3)), evalByte_of_zero h0]
    rfl
  case curve =>
    rw [acceptEval_of_valid (Nat.not_lt.2 h3), evalByte_of_pos h0]
    rfl

/-! ### No buffer (R173) -/

theorem acceptEval_err {s t : State} (h : acceptEval s = .next t) :
    t.err = .invalidCurveSelector ∨ t.err = .ok := by
  rcases acceptEval_cases h with ⟨-, rfl⟩ | ⟨-, rfl⟩
  · exact .inl rfl
  · exact .inr rfl

/-- The check and the byte read SEL and SAMPLE alone. -/
theorem acceptEval_set_buffer {s t : State} (b n : Word) (h : acceptEval s = .next t) :
    acceptEval { s with base := b, len := n } = .next { t with base := b, len := n } := by
  rcases acceptEval_cases h with ⟨hv, rfl⟩ | ⟨hv, rfl⟩
  · exact acceptEval_of_selectorInvalid (s := { s with base := b, len := n }) hv
  · exact acceptEval_of_valid (s := { s with base := b, len := n }) hv

/-- Settles O10: EVAL reports OK or the selector's error, and its answer carries another BASE and LEN along. -/
theorem evalIgnoresTheBuffer : Obligations.EvalIgnoresTheBuffer := by
  intro s t b n hp h
  rw [exec_eval_of_idle hp] at h
  rw [exec_eval_of_idle (s := { s with base := b, len := n }) hp]
  refine ⟨fun he => ?_, acceptEval_set_buffer b n h⟩
  rcases acceptEval_err h with herr | herr <;> simp [herr] at he

/-! ### Agreement with APPLY (R175) -/

theorem exec_eval_result {s t : State} (hp : s.phase = .idle) (h3 : s.sel.toNat ≤ 3)
    (h : exec .eval s = .next t) : t.result = evalByte s := by
  rw [exec_eval_of_idle hp, acceptEval_of_valid (Nat.not_lt.2 h3)] at h
  cases h
  rfl

/-- What a byte step leaves at its address (R149). -/
theorem byteStep_reads_lut {admits : Bool} {s t : State} (h : byteStep admits s = .next t) :
    t.mem.read s.nextAddr = lut s.lsel (s.mem.read s.nextAddr) := by
  obtain ⟨-, -, -, rfl⟩ := byteStep_next h
  exact Memory.read_write_same _ _ _

/-- No run begins with the identity's selector (R144). -/
theorem acceptApply_keeps_phase_of_identity {s t : State} (h0 : s.sel = 0) (h : acceptApply s = .next t) :
    t.phase = s.phase := by
  rcases acceptApply_cases h with ⟨-, rfl⟩ | ⟨-, -, rfl⟩ | ⟨-, -, -, -, rfl⟩ | ⟨-, -, -, hne, -⟩
  · rfl
  · rfl
  · rfl
  · exact absurd h0 hne

/-- Settles O11: RESULT is `evalByte`, for curves 1 to 3 the table's byte, which the byte step writes too; with the
identity no run begins and memory is kept. -/
theorem evalAgreesWithApply : Obligations.EvalAgreesWithApply := by
  intro s t hp h3 h
  rw [exec_eval_result hp h3 h]
  refine ⟨fun h0 u v hu hc hl hx hstep => ?curve,
    fun h0 => ⟨evalByte_of_zero h0, fun u happly => ⟨?idle, fun a => ?memory⟩⟩⟩
  case curve =>
    rw [engineStep_of_lt true hu hc] at hstep
    rw [byteStep_reads_lut hstep, hl, hx, evalByte_of_pos h0]
  case idle =>
    rw [exec_apply_of_idle hp] at happly
    exact (acceptApply_keeps_phase_of_identity (BitVec.eq_of_toNat_eq h0) happly).trans hp
  case memory => rw [(exec_keepsOperandsAndMemory happly).mem]

end Sys2Proof.Machine
end

section
/-! PROOFS. Host register access (43_host_access.md): the CMD write in each PHASE, what the engine leaves of the
registers, and what a read and a write do at every offset. -/

namespace Sys2Proof.Machine

/-! ### The CMD write (R183 to R185) -/

/-- While IDLE the command is executed (R183); while RUN both the port and the command drop it. -/
theorem cmdWrite_of_decode_eq_ok {s : State} {w : Word} {i : Instr} (hw : decode w = .ok i) :
    cmdWrite w s = exec i s := by
  cases hp : s.phase with
  | idle => simp only [cmdWrite, hp, hw]
  | run => rw [cmdWrite_of_run w hp, exec_of_run i hp]

theorem cmdWrite_of_decode_eq_error {s : State} {w : Word} {why : Illegal} (hp : s.phase = .idle)
    (hw : decode w = .error why) :
    cmdWrite w s = .next (s.clearDone.report .illegalCommand 0 0) := by
  simp only [cmdWrite, hp, hw, acceptIllegal]

theorem exists_decode_eq_error {w : Word} (h1 : w.toNat ≠ 1) (h2 : w.toNat ≠ 2) :
    ∃ why, decode w = .error why := by
  match hw : decode w with
  | .ok .apply => exact absurd (decode_eq_apply_iff_toNat.1 hw) h1
  | .ok .eval => exact absurd (decode_eq_eval_iff_toNat.1 hw) h2
  | .error why => exact ⟨why, rfl⟩

/-- Settles O8: the decoder refuses the word, and the acceptance of an illegal word is a report. -/
theorem illegalCommandIsReported : Obligations.IllegalCommandIsReported := by
  intro s w rest hi hp h1 h2
  obtain ⟨why, hw⟩ := exists_decode_eq_error h1 h2
  rw [step_cmdWrite hi]
  exact cmdWrite_of_decode_eq_error (s := { s with inbox := rest }) hp hw

/-- Settles O4: in either PHASE the CMD write of a command's word is `exec` of it (log entry 16). -/
theorem stepRunsTheDecodedCommand : Obligations.StepRunsTheDecodedCommand := by
  intro s w rest i hi hw _
  rw [step_cmdWrite hi, cmdWrite_of_decode_eq_ok hw]

/-- Settles O6: while RUN the port drops the write before it looks at the word. -/
theorem busyCommandIsDropped : Obligations.BusyCommandIsDropped := by
  intro s w rest hi hp
  rw [step_cmdWrite hi]
  exact cmdWrite_of_run (s := { s with inbox := rest }) w hp

theorem tableWord_encode (i : Instr) : tableWord 32 (encode i).toNat = encode i := by
  rw [← BitVec.toNat_inj, toNat_tableWord, Nat.mod_eq_of_lt (encode i).isLt]

/-- Settles O5: the event put first is the CMD write of the command's word, and taking it leaves the inbox as it
was. -/
theorem fetchWordRunsTheCommand : Obligations.FetchWordRunsTheCommand := by
  intro s i
  have hw : decode (tableWord 32 (encode i).toNat) = .ok i := by rw [tableWord_encode, decode_encode]
  have hstep : step (s.withFetchWord 32 (encode i).toNat) =
      cmdWrite (tableWord 32 (encode i).toNat) { s with phase := .idle } :=
    step_cmdWrite (s := s.withFetchWord 32 (encode i).toNat) rfl
  rw [hstep, cmdWrite_of_decode_eq_ok hw]

/-! ### The registers and the engine (R187) -/

/-- No register reads `int.CUR`, buffer memory or what waits to happen. -/
theorem hostRead_set_unread (s : State) (cur : Word) (mem : Memory) (inbox : List Event) (r : Reg) :
    hostRead { s with cur, mem, inbox } r = hostRead s r := by
  cases r <;> rfl

theorem hostRead_completion (s : State) {r : Reg} (h1 : r ≠ .status) (h2 : r ≠ .errGiven)
    (h3 : r ≠ .errMax) : hostRead s.endRun.completeOk r = hostRead s r := by
  cases r with
  | status => exact absurd rfl h1
  | errGiven => exact absurd rfl h2
  | errMax => exact absurd rfl h3
  | _ => rfl

/-- Only the completion shows in the registers, and it ends RUN. -/
theorem engineStep_hostRead {admits : Bool} {s t : State} (h : engineStep admits s = .next t) :
    (∀ r, hostRead t r = hostRead s r) ∨
    (t.phase ≠ s.phase ∧ t = s.endRun.completeOk) := by
  rcases engineStep_cases h with ⟨-, rfl⟩ | ⟨-, -, -, -, -, rfl⟩ | ⟨hp, -, rfl⟩ | ⟨-, -, rfl⟩
  · exact .inl fun _ => rfl
  · exact .inl (hostRead_set_unread s _ _ s.inbox)
  · exact .inr ⟨by simp [hp], rfl⟩
  · exact .inl fun _ => rfl

/-- Settles O24: an engine step leaves every register, or it is the completion, which changes PHASE. -/
theorem engineChangesOnlyTheReport : Obligations.EngineChangesOnlyTheReport := by
  intro admits s t h
  rcases engineStep_hostRead h with hsame | ⟨hphase, rfl⟩
  · exact ⟨fun r _ _ _ => hsame r, fun _ => hsame⟩
  · exact ⟨fun _ => hostRead_completion s, fun hp => absurd hp hphase⟩

/-! ### Register reads (R181) -/

/-- A read reaches no field but the closed ranges. -/
theorem acquireOn_eq (s : State) (r : Reg) :
    s.acquireOn r = { s with unacquired := (s.acquireOn r).unacquired } := by
  unfold State.acquireOn
  split <;> rfl

theorem acquireOn_of_ne_status {r : Reg} (s : State) (h : r ≠ .status) : s.acquireOn r = s :=
  if_neg fun hr => h hr.1

theorem step_rd (s : State) (offset : Nat) (rest : List Event) :
    step { s with inbox := rd offset :: rest } =
      .next (({ s with inbox := rest }.acquireOn (regAt (slotOf offset))).reply
        (.reg (slotOf offset) (hostRead s (regAt (slotOf offset))))) := by
  rw [step_with_event, runEvent_rd, portRead, hostRead_set_unread s s.cur s.mem rest]

theorem step_rd_of_ne_status (s : State) (rest : List Event) {offset : Nat}
    (h : regAt (slotOf offset) ≠ .status) :
    step { s with inbox := rd offset :: rest } = .next { s with
      inbox := rest
      replies := .reg (slotOf offset) (hostRead s (regAt (slotOf offset))) :: s.replies } := by
  rw [step_rd, acquireOn_of_ne_status _ h]
  rfl

/-- R36: 0x28 to 0x3C and 0x80 to 0xFC. -/
theorem regAt_reserved : ∀ k < 64, 0x28 ≤ 4 * k ∧ 4 * k ≤ 0x3C ∨ 0x80 ≤ 4 * k ∧ 4 * k ≤ 0xFC →
    regAt (slotOf (4 * k)) = .reserved := by
  decide

/-- Settles O26: the offset picks the register, whose value is the reply; only a STATUS read reaches the closed
ranges. -/
theorem registerReads : Obligations.RegisterReads := by
  intro s rest got
  have hgot : ∀ {offset}, regAt (slotOf offset) ≠ .status →
      got offset (hostRead s (regAt (slotOf offset))) := step_rd_of_ne_status s rest
  refine ⟨hgot (by decide), hgot (by decide), hgot (by decide), hgot (by decide), hgot (by decide),
    hgot (by decide), hgot (by decide), hgot (by decide), hgot (by decide), fun k hk => ?name,
    fun k hk hr => ?reserved, ({ s with inbox := rest }.acquireOn .status).unacquired, ?status⟩
  case name =>
    rw [← hostRead_name hk s]
    exact hgot (by simp [regAt_name hk])
  case reserved =>
    have hreg := regAt_reserved k hk hr
    have hread := hgot (offset := 4 * k) (by simp [hreg])
    rwa [hreg] at hread
  case status =>
    rw [step_rd, show regAt (slotOf 0x04) = .status from rfl, acquireOn_eq]
    rfl

/-! ### Register writes (R182) -/

/-- The registers at which a host write may do something. -/
def writableRegs : List Reg := [.cmd, .status, .sel, .base, .len, .sample]

theorem hostWrite_of_not_writable {r : Reg} (w : Word) (s : State) (h : r ∉ writableRegs) :
    hostWrite r w s = .next s := by
  cases r with
  | cmd | status | sel | base | len | sample => exact absurd (by decide) h
  | _ => rfl

/-- From 0x18 up no register is writable (R21). -/
theorem regAt_not_writable : ∀ k < 64, 0x18 ≤ 4 * k → regAt (slotOf (4 * k)) ∉ writableRegs := by
  decide

/-- The low `AW` bits of a word fit its 32 bits, whatever `AW` is (R27). -/
theorem truncAw_toNat (aw : Nat) (w : Word) : (truncAw aw w).toNat = w.toNat % 2 ^ aw := by
  rw [truncAw, BitVec.toNat_ofNat]
  exact Nat.mod_eq_of_lt ((Nat.mod_le _ _).trans_lt w.isLt)

theorem truncSample_toNat (w : Word) : (truncSample w).toNat = w.toNat % 256 := BitVec.toNat_setWidth 8 w

theorem step_wr (s : State) (offset : Nat) (w : Word) (rest : List Event) :
    step { s with inbox := wr offset w :: rest } =
      hostWrite (regAt (slotOf offset)) w { s with inbox := rest } :=
  runEvent_wr _ _ _

/-- Settles O29: the offset picks the register, and each write is that register's; the offsets from 0x18 up hold
none that is writable. -/
theorem registerWrites : Obligations.RegisterWrites := by
  intro s rest w wrote
  have hwrote : ∀ offset, wrote offset =
      hostWrite (regAt (slotOf offset)) w { s with inbox := rest } := fun offset => step_wr s offset w rest
  refine ⟨hwrote 0x00, ?status, hwrote 0x08, ⟨_, hwrote 0x0C, truncAw_toNat _ w⟩, hwrote 0x10,
    ⟨_, hwrote 0x14, truncSample_toNat w⟩, fun k hk hoff => ?ignored⟩
  case status => exact (hwrote 0x04).trans (congrArg _ (writeStatus_eq _ w))
  case ignored => rw [hwrote, hostWrite_of_not_writable w _ (regAt_not_writable k hk hoff)]

end Sys2Proof.Machine
end

section
/-! PROOFS. Exceptions (60_exceptions.md): what an error report changes, that a command which completed at
acceptance reports the same again, and that where all memory is ordinary and no other MTC runs every step goes
on. -/

namespace Sys2Proof.Machine

/-! ### Commands that complete at acceptance (R203, R204, R207) -/

/-- An APPLY that does not begin to run does nothing but report: `completeOk` is the report of OK. -/
theorem acceptApply_eq_report_of_done {s t : State} (h : acceptApply s = .next t) (hd : t.done = true) :
    t = s.report t.err t.errGiven t.errMax := by
  rcases acceptApply_cases h with ⟨-, rfl⟩ | ⟨-, -, rfl⟩ | ⟨-, -, -, -, rfl⟩ | ⟨-, -, -, -, rfl⟩
  · rfl
  · rfl
  · rfl
  · simp at hd

/-- The checks of APPLY read no register that its reports write. -/
theorem acceptApply_again {s t : State} (h : acceptApply s = .next t) (hd : t.done = true) :
    acceptApply t = .next t := by
  rcases acceptApply_cases h with ⟨hv, rfl⟩ | ⟨hv, hw, rfl⟩ | ⟨hv, hw, hm, h0, rfl⟩ | ⟨-, -, -, -, rfl⟩
  · exact acceptApply_of_selectorInvalid (s := s.clearDone.report _ _ _) hv
  · exact acceptApply_of_wraps (s := s.clearDone.report _ _ _) hv hw
  · exact (acceptApply_of_valid (s := s.clearDone.completeOk) hv hw hm).trans (if_pos h0)
  · simp at hd

/-- Neither EVAL's check nor its byte reads a register that it writes. -/
theorem acceptEval_again {s t : State} (h : acceptEval s = .next t) : acceptEval t = .next t := by
  rcases acceptEval_cases h with ⟨hv, rfl⟩ | ⟨hv, rfl⟩
  · exact acceptEval_of_selectorInvalid (s := s.clearDone.report _ _ _) hv
  · exact acceptEval_of_valid (s := { s.clearDone.completeOk with result := evalByte s }) hv

/-- Settles O19: the state reported is IDLE again, and each acceptance repeats itself on it. -/
theorem retryReportsTheSame : Obligations.RetryReportsTheSame := by
  intro i s t hp h hd
  cases i with
  | apply =>
    rw [exec_apply_of_idle hp] at h
    have hpt : t.phase = .idle := by rw [acceptApply_eq_report_of_done h hd]; exact hp
    rw [exec_apply_of_idle hpt]
    exact acceptApply_again h hd
  | eval =>
    have hpt : t.phase = .idle := (exec_eval_keeps_engine h).1.trans hp
    rw [exec_eval_of_idle hp] at h
    rw [exec_eval_of_idle hpt]
    exact acceptEval_again h

/-! ### Errors (R205) -/

theorem acceptEval_eq_report_of_error {s t : State} (h : acceptEval s = .next t) (he : t.err ≠ .ok) :
    t = s.report t.err t.errGiven t.errMax := by
  rcases acceptEval_cases h with ⟨-, rfl⟩ | ⟨-, rfl⟩
  · rfl
  · exact absurd rfl he

theorem cmdWrite_eq_report_of_error {s t : State} {w : Word} (h : cmdWrite w s = .next t)
    (hp : s.phase = .idle) (hd : t.done = true) (he : t.err ≠ .ok) :
    t = s.report t.err t.errGiven t.errMax := by
  rcases cmdWrite_cases h with ⟨hr, -⟩ | ⟨-, -, ha⟩ | ⟨-, -, hv⟩ | ⟨-, -, rfl⟩
  · simp [hp] at hr
  · exact acceptApply_eq_report_of_done ha hd
  · exact acceptEval_eq_report_of_error hv he
  · rfl

/-- The engine's only report is that of success (R151). -/
theorem engineStep_done_err {admits : Bool} {s t : State} (h : engineStep admits s = .next t) :
    (t.done = s.done ∧ t.err = s.err) ∨ t.err = .ok := by
  rcases engineStep_cases h with ⟨-, rfl⟩ | ⟨-, -, -, -, -, rfl⟩ | ⟨-, -, rfl⟩ | ⟨-, -, rfl⟩
  · exact .inl ⟨rfl, rfl⟩
  · exact .inl ⟨rfl, rfl⟩
  · exact .inr rfl
  · exact .inl ⟨rfl, rfl⟩

/-- An error shown after a step stood there before it, or the step is a CMD write while IDLE. -/
theorem step_shows_error {s t : State} (h : step s = .next t) (hd : t.done = true) (he : t.err ≠ .ok) :
    (t.done = s.done ∧ t.err = s.err) ∨ ∃ w rest, s.inbox = wr 0x00 w :: rest ∧ s.phase = .idle := by
  rcases step_changes h with hk | ⟨_, _, -, hstep⟩ | ⟨w, rest, hi, hc⟩ | ⟨w, _, -, rfl⟩ | ⟨_, _, -, rfl⟩
  · exact .inl ⟨hk.done, hk.err⟩
  · rcases engineStep_done_err hstep with hkept | hok
    · exact .inl hkept
    · exact absurd hok he
  · cases hp : s.phase with
    | idle => exact .inr ⟨w, rest, hi, rfl⟩
    | run =>
      rw [cmdWrite_of_run (s := { s with inbox := rest }) w hp] at hc
      cases hc
      exact .inl ⟨rfl, rfl⟩
  · exact .inl ⟨State.writeStatus_done _ w, State.writeStatus_err _ w⟩
  · simp at hd

/-- Settles O18: of the steps `step_changes` names, only a CMD write while IDLE brings an error, and there the next
state is a report. -/
theorem errorsArePrecise : Obligations.ErrorsArePrecise := by
  intro s t h hd he
  refine ⟨fun hnew => ?_, fun w rest hi hp => ?_⟩
  · rcases step_shows_error h hd he with ⟨hdone, herr⟩ | hcmd
    · rcases hnew with hne | hnd
      · exact absurd herr hne
      · simp [hdone, hnd] at hd
    · exact hcmd
  · rw [step_cmdWrite hi] at h
    exact cmdWrite_eq_report_of_error (s := { s with inbox := rest }) h hp hd he

/-! ### What waits to happen

A step takes the event that stands first and changes nothing else of the inbox. -/

theorem engineStep_inbox {admits : Bool} {s t : State} (h : engineStep admits s = .next t) :
    t.inbox = s.inbox := by
  rcases engineStep_cases h with ⟨-, rfl⟩ | ⟨-, -, -, -, -, rfl⟩ | ⟨-, -, rfl⟩ | ⟨-, -, rfl⟩ <;> rfl

theorem cmdWrite_inbox {s t : State} {w : Word} (h : cmdWrite w s = .next t) : t.inbox = s.inbox := by
  rcases cmdWrite_cases h with ⟨-, rfl⟩ | ⟨-, -, ha⟩ | ⟨-, -, he⟩ | ⟨-, -, rfl⟩
  · rfl
  · exact (acceptApply_keepsOperandsAndMemory ha).inbox
  · exact (acceptEval_keepsOperandsAndMemory he).inbox
  · rfl

theorem portAccess_inbox {bits : Nat} {access : PortAccess} {s t : State}
    (h : portAccess bits access s = .next t) : t.inbox = s.inbox := by
  obtain ⟨-, ⟨slot, -, rfl⟩ | ⟨w, -, hc⟩ | ⟨w, -, rfl⟩ | ⟨_, _, -, -, -, _, _, _, _, rfl⟩⟩ :=
    portAccess_next_cases h
  · simp
  · exact cmdWrite_inbox hc
  · simp
  · rfl

theorem runEvent_inbox {e : Event} {s t : State} (h : runEvent e s = .next t) : t.inbox = s.inbox := by
  rcases runEvent_cases h with ⟨_, _, -, hp⟩ | ⟨_, _, -, hr⟩ | ⟨_, _, _, -, hw⟩ | ⟨_, -, he⟩ | ⟨_, -, rfl⟩ |
    ⟨_, _, _, -, rfl⟩ | ⟨_, -, rfl⟩
  · exact portAccess_inbox hp
  · obtain ⟨-, -, ⟨-, rfl⟩ | ⟨-, rfl⟩⟩ := memRead_cases hr <;> rfl
  · obtain ⟨-, -, rfl⟩ := memWrite_cases hw
    rfl
  · exact engineStep_inbox he
  all_goals rfl

theorem step_inbox {s t : State} (h : step s = .next t) : t.inbox = s.inbox.tail := by
  rcases step_cases h with ⟨hn, he⟩ | ⟨e, rest, hc, he⟩
  · rw [engineStep_inbox he, hn, List.tail_nil]
  · rw [runEvent_inbox he, hc, List.tail_cons]

/-! ### Operations that go on (R219)

A misplaced buffer (R80) is all that can stop a command, a CMD write or a host port access of 32 bits. -/

theorem acceptEval_goes_on (s : State) : ∃ t, acceptEval s = .next t := by
  by_cases hv : SelectorInvalid s
  · exact ⟨_, acceptEval_of_selectorInvalid hv⟩
  · exact ⟨_, acceptEval_of_valid hv⟩

section

variable {s : State} (hm : ¬ BufferMisplaced s)
include hm

theorem acceptApply_goes_on : ∃ t, acceptApply s = .next t := by
  by_cases hv : SelectorInvalid s
  · exact ⟨_, acceptApply_of_selectorInvalid hv⟩
  by_cases hw : Wraps s
  · exact ⟨_, acceptApply_of_wraps hv hw⟩
  rw [acceptApply_of_valid hv hw hm]
  split <;> exact ⟨_, rfl⟩

theorem exec_goes_on (i : Instr) : ∃ t, exec i s = .next t := by
  cases hp : s.phase with
  | run => exact ⟨_, exec_of_run i hp⟩
  | idle =>
    cases i with
    | apply => rw [exec_apply_of_idle hp]; exact acceptApply_goes_on hm
    | eval => rw [exec_eval_of_idle hp]; exact acceptEval_goes_on s

theorem cmdWrite_goes_on (w : Word) : ∃ t, cmdWrite w s = .next t := by
  cases hp : s.phase with
  | run => exact ⟨_, cmdWrite_of_run w hp⟩
  | idle =>
    cases hw : decode w with
    | ok i => rw [cmdWrite_of_decode_eq_ok hw]; exact exec_goes_on hm i
    | error why => exact ⟨_, cmdWrite_of_decode_eq_error hp hw⟩

theorem hostWrite_goes_on (r : Reg) (w : Word) : ∃ t, hostWrite r w s = .next t := by
  cases r with
  | cmd => exact cmdWrite_goes_on hm w
  | _ => exact ⟨_, rfl⟩

theorem portAccess_goes_on (access : PortAccess) : ∃ t, portAccess 32 access s = .next t := by
  cases access with
  | read slot => exact ⟨_, portAccess_of_read slot s⟩
  | write slot w => rw [portAccess_of_write]; exact hostWrite_goes_on hm _ w

end

/-- The engine goes on if the byte it may be about to map is open to it. -/
theorem engineStep_goes_on {s : State} (hle : s.cur.toNat ≤ s.endOff.toNat)
    (hopen : s.phase = .run → s.cur.toNat < s.endOff.toNat →
      ¬ Foreign s s.nextAddr ∧ Ordinary s.cfg s.nextAddr) : ∃ t, engineStep true s = .next t := by
  cases hp : s.phase with
  | idle => exact ⟨_, engineStep_of_idle true hp⟩
  | run =>
    rcases Nat.lt_or_eq_of_le hle with hlt | heq
    · obtain ⟨hf, ho⟩ := hopen hp hlt
      exact ⟨_, (engineStep_of_lt true hp hlt).trans (byteStep_of_open hf ho)⟩
    · exact ⟨_, engineStep_of_eq true hp (BitVec.eq_of_toNat_eq heq)⟩

/-! ### Ordinary memory and no other MTC -/

/-- Nothing stands in the block's way: all memory is ordinary, no other MTC runs, and what waits is benign. The
tests' `midway` is such a state. -/
structure Unhindered (s : State) : Prop where
  inv : Inv s
  memMap : s.cfg.memMap = []
  claims : s.claims = []
  benign : ∀ e ∈ s.inbox, e.benign = true

namespace Unhindered

variable {s t : State} (h : Unhindered s)
include h

theorem not_bufferMisplaced : ¬ BufferMisplaced s := by
  rintro ⟨r, hr, -⟩
  simp [h.memMap] at hr

theorem not_foreign (a : Nat) : ¬ Foreign s a := by
  rintro ⟨c, hc, -⟩
  simp [h.claims] at hc

theorem ordinary_of_lt {a : Nat} (ha : a < 2 ^ s.cfg.aw) : Ordinary s.cfg a :=
  ⟨ha, fun r hr => by simp [h.memMap] at hr⟩

/-- The running range ends within memory (R143), so the next byte exists. -/
theorem nextAddr_lt (hp : s.phase = .run) (hc : s.cur.toNat < s.endOff.toNat) :
    s.nextAddr < 2 ^ s.cfg.aw :=
  Nat.lt_of_lt_of_le (Nat.add_lt_add_left hc _) (h.inv.runInMemory hp)

theorem engineStep_goes_on : ∃ t, engineStep true s = .next t :=
  Machine.engineStep_goes_on h.inv.curLeEnd fun hp hc =>
    ⟨h.not_foreign _, h.ordinary_of_lt (h.nextAddr_lt hp hc)⟩

theorem runEvent_goes_on {e : Event} (he : e.benign = true) : ∃ t, runEvent e s = .next t := by
  cases e with
  | port bits access =>
    obtain rfl : bits = 32 := by simpa [Event.benign] using he
    exact portAccess_goes_on h.not_bufferMisplaced access
  | engine admits =>
    obtain rfl : admits = true := he
    exact h.engineStep_goes_on
  | reset mapped => exact ⟨_, rfl⟩
  | otherEnd id => exact ⟨_, rfl⟩
  | memRead _ _ | memWrite _ _ _ | otherRun _ _ _ => simp [Event.benign] at he

theorem take_event {e : Event} {rest : List Event} (hi : s.inbox = e :: rest) :
    Unhindered { s with inbox := rest } where
  inv := h.inv.set_inbox rest
  memMap := h.memMap
  claims := h.claims
  benign := fun f hf => h.benign f (by simp [hi, hf])

theorem step_goes_on : ∃ t, step s = .next t := by
  cases hi : s.inbox with
  | nil => rw [step_of_nil hi]; exact h.engineStep_goes_on
  | cons e rest =>
    rw [step_of_cons hi]
    exact (h.take_event hi).runEvent_goes_on (h.benign e (by simp [hi]))

/-- Where no territory stands, the end of another MTC's run removes none; its beginning is not benign. -/
theorem step_claims (ht : step s = .next t) : t.claims = [] := by
  by_cases hc : t.claims = s.claims
  · exact hc.trans h.claims
  rcases step_changes_claims ht hc with ⟨id, base, size, rest, hi⟩ | ⟨id, rest, hi⟩
  · have hbenign := h.benign (.otherRun id base size) (by simp [hi])
    simp [Event.benign] at hbenign
  · rw [step_of_cons hi] at ht
    cases ht
    simp [h.claims]

theorem step_keeps (ht : step s = .next t) : Unhindered t where
  inv := step_keeps_inv h.inv ht
  memMap := by rw [step_cfg ht]; exact h.memMap
  claims := h.step_claims ht
  benign := fun e he => h.benign e (List.mem_of_mem_tail (step_inbox ht ▸ he))

theorem safe : Safe s := by
  intro k
  induction k generalizing s with
  | zero => exact ⟨s, runFor_zero s⟩
  | succ k ih =>
    obtain ⟨t, ht⟩ := h.step_goes_on
    rw [runFor_of_next k ht]
    exact ih (h.step_keeps ht)

end Unhindered

/-- Settles O59: the premises are `Unhindered`, from which a step goes on and which it keeps. -/
theorem benignStepGoesOn : Obligations.BenignStepGoesOn := by
  intro s hs hmap hclaims hbenign
  have h : Unhindered s := ⟨hs, hmap, hclaims, hbenign⟩
  obtain ⟨t, ht⟩ := h.step_goes_on
  obtain ⟨hinv, hmap', hclaims', hbenign'⟩ := h.step_keeps ht
  exact ⟨t, ht, hinv, hmap', hclaims', hbenign'⟩

/-- Settles O60: by induction on the number of steps, each of which goes on and keeps the premises. -/
theorem theBlockNeverHalts : Obligations.TheBlockNeverHalts :=
  fun _ hs hmap hclaims hbenign => Unhindered.safe ⟨hs, hmap, hclaims, hbenign⟩

end Sys2Proof.Machine
end

section
/-! PROOFS. Reset and hazards (70_reset_and_hazards.md): what reset leaves (R230 to R232), the first command after
it (R234), that operand registers read back (R235) and take no part in a run (R240), that a range stays closed
until its end is seen (R237), and the end of a host program (R242). -/

namespace Sys2Proof.Machine

/-! ### Runs of two steps -/

theorem runFor_one (s : State) : runFor 1 s = step s := by
  rw [runFor_succ]
  cases step s <;> rfl

theorem runFor_two_of_next {s t : State} (h : step s = .next t) : runFor 2 s = step t :=
  (runFor_of_next 1 h).trans (runFor_one t)

/-! ### The operand registers (R26 to R29, R235) -/

/-- The registers from which a command takes its operands when it is accepted (R93). -/
def operandRegs : List Reg := [.sel, .base, .len, .sample]

/-- The state after the host's write of `w` to the operand register `r` (R182), the events after it waiting. -/
def State.takeOperandWrite (s : State) (r : Reg) (w : Word) (rest : List Event) : State :=
  { s with
    sel := if r = .sel then w else s.sel
    base := if r = .base then truncAw s.cfg.aw w else s.base
    len := if r = .len then w else s.len
    sample := if r = .sample then truncSample w else s.sample
    inbox := rest }

theorem hostWrite_of_operand {r : Reg} (w : Word) (s : State) (h : r ∈ operandRegs) :
    hostWrite r w s = .next (s.takeOperandWrite r w s.inbox) := by
  simp only [operandRegs, List.mem_cons, List.not_mem_nil, or_false] at h
  rcases h with rfl | rfl | rfl | rfl <;> rfl

theorem regAt_operand {offset : Nat}
    (h : offset = 0x08 ∨ offset = 0x0C ∨ offset = 0x10 ∨ offset = 0x14) :
    regAt (slotOf offset) ∈ operandRegs := by
  rcases h with rfl | rfl | rfl | rfl <;> decide

theorem step_of_operandWrite {s : State} {offset : Nat} {w : Word} {rest : List Event}
    (hreg : regAt (slotOf offset) ∈ operandRegs) (hi : s.inbox = wr offset w :: rest) :
    step s = .next (s.takeOperandWrite (regAt (slotOf offset)) w rest) := by
  rw [step_of_cons hi, runEvent_wr]
  exact hostWrite_of_operand w { s with inbox := rest } hreg

/-- A read right after the write gives the host what the register then holds. -/
theorem runFor_write_read {s : State} {offset : Nat} {w : Word} {rest : List Event}
    (hreg : regAt (slotOf offset) ∈ operandRegs) :
    ∃ t, runFor 2 { s with inbox := wr offset w :: rd offset :: rest } = .next t ∧
      t.replies = .reg (slotOf offset)
        (hostRead (s.takeOperandWrite (regAt (slotOf offset)) w rest) (regAt (slotOf offset))) :: s.replies ∧
      t.inbox = rest := by
  have hne : regAt (slotOf offset) ≠ .status := fun e => absurd (e ▸ hreg) (by decide)
  rw [runFor_two_of_next (step_of_operandWrite hreg rfl)]
  exact ⟨_, step_rd_of_ne_status (s.takeOperandWrite (regAt (slotOf offset)) w rest) rest hne, rfl, rfl⟩

/-- Settles O30: the reply is the register after its write, which holds the word or its low bits. -/
theorem writtenRegistersReadBack : Obligations.WrittenRegistersReadBack := by
  intro s w rest offset v h
  have hoffset : offset = 0x08 ∨ offset = 0x0C ∨ offset = 0x10 ∨ offset = 0x14 :=
    h.imp And.left (.imp And.left (.imp And.left And.left))
  have hread : (hostRead (s.takeOperandWrite (regAt (slotOf offset)) w rest)
      (regAt (slotOf offset))).toNat = v := by
    rcases h with ⟨rfl, rfl⟩ | ⟨rfl, rfl⟩ | ⟨rfl, rfl⟩ | ⟨rfl, rfl⟩
    · rfl
    · exact truncAw_toNat s.cfg.aw w
    · rfl
    · exact (BitVec.toNat_setWidth_of_le (by decide)).trans (truncSample_toNat w)
  rw [← hread, BitVec.ofNat_toNat, BitVec.setWidth_eq]
  exact runFor_write_read (regAt_operand hoffset)

/-! ### Operand writes and the engine (R240) -/

/-- The outcome with `f` done to the next state, if there is one. -/
def mapNext (f : State → State) : Host.Outcome State Fault Refusal → Host.Outcome State Fault Refusal
  | .next t => .next (f t)
  | .fault p => .fault p
  | .refused p => .refused p

theorem engineStep_of_run {s : State} (admits : Bool) (h : s.phase = .run) :
    engineStep admits s =
      if s.cur.toNat < s.endOff.toNat then byteStep admits s
      else if s.cur = s.endOff then completionStep s else .next s := by
  simp only [engineStep, h]

section

/-! No test of the engine reads an operand register, and no answer of it writes one. -/

variable (admits : Bool) (s : State) (r : Reg) (w : Word) (rest : List Event)

theorem byteStep_takeOperandWrite :
    byteStep admits (s.takeOperandWrite r w rest) =
      mapNext (·.takeOperandWrite r w rest) (byteStep admits s) := by
  rw [byteStep, byteStep, apply_ite (mapNext _), apply_ite (mapNext _)]
  rfl

theorem engineStep_takeOperandWrite :
    engineStep admits (s.takeOperandWrite r w rest) =
      mapNext (·.takeOperandWrite r w rest) (engineStep admits s) := by
  cases hp : s.phase with
  | idle =>
    rw [engineStep_of_idle admits hp]
    exact engineStep_of_idle (s := s.takeOperandWrite r w rest) admits hp
  | run =>
    rw [engineStep_of_run admits hp, apply_ite (mapNext _), apply_ite (mapNext _),
      ← byteStep_takeOperandWrite]
    exact engineStep_of_run (s := s.takeOperandWrite r w rest) admits hp

end

/-- Settles O25: before and after the write the engine's step does the same, and stops on the same. -/
theorem operandWritesCommuteWithTheEngine : Obligations.OperandWritesCommuteWithTheEngine := by
  intro s offset w admits rest hoffset
  have hreg := regAt_operand hoffset
  have hwrite : runFor 2 { s with inbox := wr offset w :: .engine admits :: rest } =
      mapNext (·.takeOperandWrite (regAt (slotOf offset)) w rest)
        (engineStep admits { s with inbox := wr offset w :: rest }) := by
    rw [runFor_two_of_next (step_of_operandWrite hreg rfl)]
    exact engineStep_takeOperandWrite admits { s with inbox := wr offset w :: rest } _ w rest
  rw [hwrite, runFor_succ, step_with_event, runEvent]
  cases he : engineStep admits { s with inbox := wr offset w :: rest } with
  | next t => exact ((runFor_one t).trans (step_of_operandWrite hreg (engineStep_inbox he))).symm
  | fault p => rfl
  | refused p => rfl

/-! ### Ranges whose end the host has not seen (R237) -/

theorem cmdWrite_keepsOperandsAndMemory {s t : State} {w : Word} (h : cmdWrite w s = .next t) :
    KeepsOperandsAndMemory s t := by
  rcases cmdWrite_cases h with ⟨-, rfl⟩ | ⟨-, -, ha⟩ | ⟨-, -, he⟩ | ⟨-, -, rfl⟩
  · exact {}
  · exact acceptApply_keepsOperandsAndMemory ha
  · exact acceptEval_keepsOperandsAndMemory he
  · exact {}

theorem engineStep_keeps_unacquired {admits : Bool} {s t : State} {p : Span}
    (h : engineStep admits s = .next t) (hp : p ∈ s.unacquired) : p ∈ t.unacquired := by
  rcases engineStep_cases h with ⟨-, rfl⟩ | ⟨-, -, -, -, -, rfl⟩ | ⟨-, -, rfl⟩ | ⟨-, -, rfl⟩
  · exact hp
  · exact hp
  · exact List.mem_cons_of_mem _ hp
  · exact hp

theorem portAccess_keeps_unacquired {bits : Nat} {access : PortAccess} {s t : State} {p : Span}
    (h : portAccess bits access s = .next t) (hp : p ∈ s.unacquired) :
    p ∈ t.unacquired ∨ s.phase = .idle ∧ Event.port bits access = rd 0x04 := by
  obtain ⟨rfl, ⟨slot, rfl, rfl⟩ | ⟨w, -, hc⟩ | ⟨w, -, rfl⟩ | ⟨_, _, -, -, -, _, _, _, _, rfl⟩⟩ :=
    portAccess_next_cases h
  · by_cases hacq : regAt slot = .status ∧ s.phase = .idle
    · exact .inr ⟨hacq.2, by rw [regAt_eq_status hacq.1]; rfl⟩
    · exact .inl (by simpa [hacq] using hp)
  · exact .inl ((cmdWrite_keepsOperandsAndMemory hc).unacquired ▸ hp)
  · exact .inl (by simpa using hp)
  · exact .inl hp

theorem step_keeps_unacquired {s t : State} {p : Span} (h : step s = .next t) (hp : p ∈ s.unacquired) :
    p ∈ t.unacquired ∨ ∃ rest, s.phase = .idle ∧ s.inbox = rd 0x04 :: rest := by
  rcases step_next_cases h with ⟨_, _, -, he⟩ | ⟨_, _, rest, hi, ha⟩ | ⟨_, _, _, -, hr⟩ | ⟨_, _, _, _, -, hw⟩ |
    ⟨_, _, -, rfl⟩ | ⟨_, _, _, _, -, rfl⟩ | ⟨_, _, -, rfl⟩
  · exact .inl (engineStep_keeps_unacquired he hp)
  · rcases portAccess_keeps_unacquired ha hp with hp | ⟨hidle, he⟩
    · exact .inl hp
    · exact .inr ⟨rest, hidle, he ▸ hi⟩
  · obtain ⟨-, -, ⟨-, rfl⟩ | ⟨-, rfl⟩⟩ := memRead_cases hr <;> exact .inl hp
  · obtain ⟨-, -, rfl⟩ := memWrite_cases hw
    exact .inl hp
  · left
    rw [State.resetBlock_unacquired]
    split
    · exact List.mem_cons_of_mem _ hp
    · exact hp
  · exact .inl hp
  · exact .inl hp

theorem step_access_of_unacquired {s : State} {agent : Agent} {a : Nat} {v : Byte} {rest : List Event}
    (hin : ∃ p ∈ s.unacquired, p.Holds a) (ha : a < 2 ^ s.cfg.aw)
    (hi : s.inbox = .memRead agent a :: rest ∨ s.inbox = .memWrite agent a v :: rest) :
    step s = .fault (.bufferRace a) :=
  step_access_of_races hi ha (.inl (.inr hin))

/-- Settles O40: the access races, only a STATUS read while IDLE empties the list of closed ranges, and both the
completion and a reset put the running range on it. -/
theorem unseenCompletionStaysClosed : Obligations.UnseenCompletionStaysClosed := by
  refine ⟨fun s agent a v rest hin ha hi => step_access_of_unacquired hin ha hi,
    fun s t p h hp => step_keeps_unacquired h hp, ?_⟩
  intro s agent a v admits mapped rest hp hlo hhi ha e he
  have hinbox : e :: rest = .memRead agent a :: rest ∨ e :: rest = .memWrite agent a v :: rest := by
    simpa using he
  have hholds : s.runSpan.Holds a := ⟨hlo, hhi⟩
  constructor
  · intro hend
    have hstep : step { s with inbox := .engine admits :: e :: rest } =
        .next { s with inbox := e :: rest }.endRun.completeOk :=
      engineStep_of_eq (s := { s with inbox := e :: rest }) admits hp hend
    rw [runFor_two_of_next hstep]
    exact step_access_of_unacquired ⟨s.runSpan, List.mem_cons_self, hholds⟩ ha hinbox
  · rw [runFor_two_of_next (step_with_event s (.reset mapped) (e :: rest))]
    refine step_access_of_unacquired ⟨s.runSpan, ?_, hholds⟩ ha hinbox
    simp [hp, State.runSpan]

/-! ### Reset (R230 to R232) -/

theorem resetMemory_of_idle {s : State} (mapped : List Nat) (h : s.phase = .idle) :
    resetMemory mapped s = s.mem := by
  simp only [resetMemory, h]

theorem resetMemory_of_run {s : State} (mapped : List Nat) (h : s.phase = .run) :
    resetMemory mapped s = resetBytes mapped s s.endOff.toNat := by
  simp only [resetMemory, h]

@[simp] theorem statusWord_resetBlock (s : State) (mapped : List Nat) : (resetBlock mapped s).statusWord = 0 :=
  show State.reset.statusWord = 0 from rfl

/-- Settles O45: the block is as `State.initial` has it, and what is not the block's is carried over. -/
theorem resetClearsTheBlock : Obligations.ResetClearsTheBlock := by
  intro s mapped rest hi
  refine ⟨_, step_of_cons hi, ?_⟩
  simp

/-- Settles O46: while IDLE reset leaves memory, and CURVE_MAX and the NAME words are constants. -/
theorem resetWhileIdleKeepsMemory : Obligations.ResetWhileIdleKeepsMemory := by
  intro s mapped rest hi hp
  have hmem := resetMemory_of_idle (s := { s with inbox := rest }) mapped hp
  exact ⟨_, step_of_cons hi, fun a => by rw [State.resetBlock_mem, hmem], rfl, fun _ => rfl⟩

section

variable {s : State} (mapped : List Nat) (hp : s.phase = .run)

include hp

theorem read_resetMemory_of_run {i : Nat} (hi : i < s.endOff.toNat) :
    (resetMemory mapped s).read (s.lbase.toNat + i) =
      if i ∈ mapped then lut s.lsel (s.snapshot.read (s.lbase.toNat + i))
      else s.snapshot.read (s.lbase.toNat + i) := by
  rw [resetMemory_of_run mapped hp, read_resetBytes, if_pos (by omega), Nat.add_sub_cancel_left]
  rfl

theorem read_resetMemory_outside {a : Nat}
    (ha : a < s.lbase.toNat ∨ s.lbase.toNat + s.endOff.toNat ≤ a) :
    (resetMemory mapped s).read a = s.mem.read a := by
  rw [resetMemory_of_run mapped hp, read_resetBytes, if_neg (by omega)]

end

/-- Settles O47: inside the range a byte is mapped if its offset is among those the reset names, so the offsets
that `choice` picks make any combination. -/
theorem resetDuringRun : Obligations.ResetDuringRun := by
  intro s rest hp
  have hrun : ({ s with inbox := rest } : State).phase = .run := hp
  refine ⟨fun mapped => ⟨_, rfl, rfl, rfl, fun i hi => ?either,
    fun a ha => read_resetMemory_outside mapped hrun ha⟩, fun choice =>
    ⟨(List.range s.endOff.toNat).filter choice, _, rfl, fun i hi => ?chosen⟩⟩
  case either =>
    have hread := read_resetMemory_of_run mapped hrun hi
    split at hread
    · exact .inr hread
    · exact .inl hread
  case chosen =>
    have hread := read_resetMemory_of_run ((List.range s.endOff.toNat).filter choice) hrun hi
    simpa [hi] using hread

/-! ### After reset (R230, R234) -/

/-- The block under any well-formed parameters, with nothing in memory and nothing running. -/
theorem Inv.initial {cfg : Config} (h : cfg.wf = true) : Inv (State.initial cfg) where
  cfgWf := h
  memWf := Memory.wf_nil
  snapshotWf := Memory.wf_nil
  memBelow := nofun
  baseBelow := Nat.two_pow_pos _
  lbaseBelow := Nat.two_pow_pos _
  curLeEnd := Nat.le_refl _
  endWhole := rfl
  errInvalid := nofun
  errOther := fun _ => ⟨rfl, rfl⟩
  runNotDone := nofun
  runSelector := nofun
  runInMemory := nofun
  runPlaced := nofun
  runMapped := nofun
  runUnmapped := nofun

/-- Settles O57: the parameters that reset takes (log entries 1 and 2) are well formed. -/
theorem resetMeetsTheInvariant : Obligations.ResetMeetsTheInvariant :=
  Inv.initial (cfg := Config.reference) (by decide)

/-- Settles O48: SEL is 0 after reset, so the command is the identity's on an empty buffer (R144). -/
theorem firstApplyAfterReset : Obligations.FirstApplyAfterReset :=
  ⟨(fetchWordRunsTheCommand State.reset .apply).trans
    (applyIdentityTouchesNothing State.reset rfl rfl (Nat.zero_le _) fun _ _ _ => nofun), rfl, rfl⟩

/-! ### The end of a host program (R242) -/

theorem hostRead_set_claims (s : State) (claims : List Claim) (inbox : List Event) (r : Reg) :
    hostRead { s with claims, inbox } r = hostRead s r := by
  cases r <;> rfl

/-- No host access waits in a final state. -/
theorem inbox_ne_of_final {s : State} {e : Event} {rest : List Event} (hs : Final s)
    (he : e.ofHost = true) : s.inbox ≠ e :: rest := by
  intro hi
  have hother := hs.1 e (hi ▸ List.mem_cons_self)
  simp [he] at hother

theorem final_of_step {s t : State} (hs : Final s) (h : step s = .next t) : Final t := by
  refine ⟨fun e he => hs.1 e (List.mem_of_mem_tail (step_inbox h ▸ he)), ?_⟩
  rcases step_phase h with hsame | ⟨-, rest, hi, -⟩ | ⟨hidle, -⟩ | ⟨hidle, -⟩
  · exact hsame.trans hs.2
  · exact absurd hi (inbox_ne_of_final hs rfl)
  · exact hidle
  · exact hidle

/-- In a final state the engine has no step and no host access waits; the other agents' events, but for a reset,
reach no register. -/
theorem step_hostRead_of_final {s t : State} (hs : Final s) (h : step s = .next t) :
    (∃ mapped rest, s.inbox = .reset mapped :: rest) ∨ ∀ r, hostRead t r = hostRead s r := by
  rcases step_next_cases h with ⟨_, rest, -, he⟩ | ⟨_, _, _, hi, -⟩ | ⟨_, _, rest, hi, hr⟩ |
    ⟨_, _, _, rest, -, hw⟩ | ⟨mapped, rest, hi, -⟩ | ⟨_, _, _, rest, -, rfl⟩ | ⟨_, rest, -, rfl⟩
  · rw [engineStep_of_idle (s := { s with inbox := rest }) _ hs.2] at he
    cases he
    exact .inr (hostRead_set_unread s _ _ rest)
  · exact absurd hi (inbox_ne_of_final hs rfl)
  · obtain ⟨-, -, ⟨rfl, -⟩ | ⟨-, rfl⟩⟩ := memRead_cases hr
    · exact absurd hi (inbox_ne_of_final hs rfl)
    · exact .inr (hostRead_set_unread s _ _ rest)
  · obtain ⟨-, -, rfl⟩ := memWrite_cases hw
    exact .inr (hostRead_set_unread s _ _ rest)
  · exact .inl ⟨mapped, rest, hi⟩
  · exact .inr (hostRead_set_claims s _ rest)
  · exact .inr (hostRead_set_claims s _ rest)

/-- Settles O55: no step of the others makes PHASE RUN or adds a host access. -/
theorem finalStateStaysFinal : Obligations.FinalStateStaysFinal :=
  fun _ _ hs h => ⟨final_of_step hs h, step_hostRead_of_final hs h⟩

end Sys2Proof.Machine
end
